-- ==== Sys2Proof/Word.lean ====
section
/-! DEFINITION. The word types of the machine (spec/00_scope.md rule R9) and the plainest arithmetic on them. -/

namespace Sys2Proof

/-- A 32-bit register, address or data word (R9). -/
abbrev Word := BitVec 32

/-- A byte. -/
abbrev Byte := BitVec 8

/-- The number of a general register, R0 to R15 (R101). -/
abbrev Reg := BitVec 4

/-- The number of a low register, R0 to R7, in a Thumb instruction (R115). -/
abbrev LoReg := BitVec 3

/-- A low register's number as a general register's number. -/
def LoReg.reg (r : LoReg) : Reg := r.setWidth 4

/-- A one-bit value as a word. -/
def bitWord (b : Bool) : Word := if b then 1 else 0

end Sys2Proof
end

