-- ==== Sys2Proof/Config.lean ====
section
/-! DEFINITION. What one implementation fixes, and the values the spec leaves free. Nothing here has a value that a
proof could use: a theorem about the machine holds whatever these constants are. -/

namespace Sys2Proof.Config

/-- The EmbeddedICE-RT version number in bits [31:28] of the comms channel status register (R42): the spec gives
no value (R10, parameter ICE_VERSION). -/
opaque iceVersion : BitVec 4

/-- The n-th word that the spec leaves open ("any value", D3). State counts how many were taken. -/
opaque freeWord : Nat → Word

/-- The n-th yes-or-no that the spec leaves open. -/
opaque freeBool : Nat → Bool

/-- Which of the address bits above the range of a TCM flags an xTCMERROR failure in its BIST fail address (R39, R140):
the spec does not say (N-10-6). The argument is the number of address bits in use. -/
opaque bistErrorBit : Nat → Nat

end Sys2Proof.Config
end

