-- ==== Sys2Proof/Syntax.lean ====
section
/-! DEFINITION. The instructions: one constructor for each row of spec/opcode_table.json, in the table's order
(rows 0 to 163 are ARM instructions, rows 164 to 230 Thumb instructions), and the types of their fields.

Bits that "should be zero" or "should be one" are fields named `sbz` and `sbo` (R101): a wrong value there does not
make another instruction, it makes the instruction UNPREDICTABLE, which its meaning says. -/

namespace Sys2Proof

/-- The fifteen conditions of R100. The pattern 1111 is no condition: it selects the unconditional space (R111). -/
inductive Cond
  | eq | ne | cs | cc | mi | pl | vs | vc | hi | ls | ge | lt | gt | le | al
deriving DecidableEq, Repr

/-- The four shift types of R102, by their field value 00, 01, 10, 11. -/
inductive ShiftKind
  | lsl | lsr | asr | ror
deriving DecidableEq, Repr

/-- How a single load or store uses its base (R106): P = 1, W = 0; P = 1, W = 1; P = 0, W = 0. (P = 0 with W = 1 is
another instruction: LDRT, LDRBT, STRT, STRBT.) -/
inductive Indexing
  | offset | preIndexed | postIndexed
deriving DecidableEq, Repr

/-- The addressing forms of LDC and STC (R155); `u` is the bit that adds the offset. The unindexed form has
P = 0, W = 0, U = 1: with U = 0 the pattern is not LDC or STC. -/
inductive CpIndexing
  | offset (u : Bool) | preIndexed (u : Bool) | postIndexed (u : Bool) | unindexed
deriving DecidableEq, Repr

/-- One instruction: an opcode-table row with its fields. -/
inductive Instr
  /-- row 0: PLD, `11110101U101nnnn1111iiiiiiiiiiii` (R233) -/
  | pldImm (u : Bool) (rn : Reg) (imm : BitVec 12)
  /-- row 1: PLD, `11110111U101nnnn1111ssssstt0mmmm` (R233) -/
  | pldReg (u : Bool) (rn : Reg) (sh : BitVec 5) (k : ShiftKind) (rm : Reg)
  /-- row 2: BLX__1, `1111101Hiiiiiiiiiiiiiiiiiiiiiiii` (R208) -/
  | blxImm (h : Bool) (imm : BitVec 24)
  /-- row 3: UNALLOCATED, `11111100000xxxxxxxxxxxxxxxxxxxxx` (R113) -/
  | unallocUncondLsm (bits : BitVec 21)
  /-- row 4: UNALLOCATED, `11111100010xxxxxxxxxxxxxxxxxxxxx` (R113) -/
  | unallocUncondMcrr (bits : BitVec 21)
  /-- row 5: LDC2, `1111110PUNW1nnnnddddppppiiiiiiii` (R161) -/
  | ldc2 (a : CpIndexing) (n : Bool) (rn crd cp : Reg) (imm : BitVec 8)
  /-- row 6: STC2, `1111110PUNW0nnnnddddppppiiiiiiii` (R161) -/
  | stc2 (a : CpIndexing) (n : Bool) (rn crd cp : Reg) (imm : BitVec 8)
  /-- row 7: CDP2, `11111110oooonnnnddddppppooo0mmmm` (R161) -/
  | cdp2 (op1 : BitVec 4) (crn crd cp : Reg) (op2 : BitVec 3) (crm : Reg)
  /-- row 8: MCR2, `11111110ooo0nnnnddddppppooo1mmmm` (R161) -/
  | mcr2 (op1 : BitVec 3) (crn rd cp : Reg) (op2 : BitVec 3) (crm : Reg)
  /-- row 9: MRC2, `11111110ooo1nnnnddddppppooo1mmmm` (R161) -/
  | mrc2 (op1 : BitVec 3) (crn rd cp : Reg) (op2 : BitVec 3) (crm : Reg)
  /-- row 10: UNALLOCATED, `1111xxxxxxxxxxxxxxxxxxxxxxxxxxxx` (R113) -/
  | unallocUncond (bits : BitVec 28)
  /-- row 11: MRC_p15_0_Rd_c0_c0_2__read_TCM_Size_Register, `cccc111000010000dddd111101010000` (R128) -/
  | mrcTcmSize (c : Cond) (rd : Reg)
  /-- row 12: MRC_p15_0_Rd_c0_c0__0_1_3-7___read_ID_Code_Register, `cccc111000010000dddd1111ooo10000` (R127) -/
  | mrcIdCode (c : Cond) (rd : Reg) (op2 : BitVec 3)
  /-- row 13: MRC_p15_0_Rd_c1_c0_0__read_Control_Register, `cccc111000010001dddd111100010000` (R129) -/
  | mrcControl (c : Cond) (rd : Reg)
  /-- row 14: MCR_p15_0_Rd_c1_c0_0__write_Control_Register, `cccc111000000001dddd111100010000` (R130) -/
  | mcrControl (c : Cond) (rd : Reg)
  /-- row 15: MCR_p15_0_Rd_c7_c0_4__wait_for_interrupt, `cccc111000000111dddd111110010000` (R132) -/
  | mcrWaitForInterrupt (c : Cond) (rd : Reg)
  /-- row 16: MCR_p15_0_Rd_c15_c8_2__wait_for_interrupt__legacy, `cccc111000001111dddd111101011000` (R132) -/
  | mcrWaitForInterruptLegacy (c : Cond) (rd : Reg)
  /-- row 17: MCR_p15_0_Rd_c7_c10_4__drain_write_buffer, `cccc111000000111dddd111110011010` (R133) -/
  | mcrDrainWriteBuffer (c : Cond) (rd : Reg)
  /-- row 18: MRC_p15_0_Rd_c13_CRm_0__read_Trace_Process_Identifier, `cccc111000011101dddd11110001mmmm` (R134) -/
  | mrcProcId (c : Cond) (rd crm : Reg)
  /-- row 19: MCR_p15_0_Rd_c13_CRm_0__write_Trace_Process_Identifier, `cccc111000001101dddd11110001mmmm` (R135) -/
  | mcrProcId (c : Cond) (rd crm : Reg)
  /-- row 20: MRC_p15_1_Rd_c15_c1_0__read_Configuration_Control_Regist, `cccc111000111111dddd111100010001` (R136) -/
  | mrcConfigControl (c : Cond) (rd : Reg)
  /-- row 21: MCR_p15_1_Rd_c15_c1_0__write_Configuration_Control_Regis, `cccc111000101111dddd111100010001` (R137) -/
  | mcrConfigControl (c : Cond) (rd : Reg)
  /-- row 22: MRC_p15_1_Rd_c15_c0_1__read_BIST_Control_Register, `cccc111000111111dddd111100110000` (R138) -/
  | mrcBistControl (c : Cond) (rd : Reg)
  /-- row 23: MCR_p15_1_Rd_c15_c0_1__write_BIST_Control_Register, `cccc111000101111dddd111100110000` (R139) -/
  | mcrBistControl (c : Cond) (rd : Reg)
  /-- row 24: MRC_p15_1_Rd_c15_c0_2__read_Instruction_BIST_Address_Reg, `cccc111000111111dddd111101010000` (R140) -/
  | mrcIBistAddress (c : Cond) (rd : Reg)
  /-- row 25: MCR_p15_1_Rd_c15_c0_2__write_Instruction_BIST_Address_Re, `cccc111000101111dddd111101010000` (R141) -/
  | mcrIBistAddress (c : Cond) (rd : Reg)
  /-- row 26: MRC_p15_1_Rd_c15_c0_3__read_Instruction_BIST_General_Reg, `cccc111000111111dddd111101110000` (R142) -/
  | mrcIBistGeneral (c : Cond) (rd : Reg)
  /-- row 27: MCR_p15_1_Rd_c15_c0_3__write_Instruction_BIST_General_Re, `cccc111000101111dddd111101110000` (R143) -/
  | mcrIBistGeneral (c : Cond) (rd : Reg)
  /-- row 28: MRC_p15_1_Rd_c15_c0_6__read_Data_BIST_Address_Register, `cccc111000111111dddd111111010000` (R140) -/
  | mrcDBistAddress (c : Cond) (rd : Reg)
  /-- row 29: MCR_p15_1_Rd_c15_c0_6__write_Data_BIST_Address_Register, `cccc111000101111dddd111111010000` (R141) -/
  | mcrDBistAddress (c : Cond) (rd : Reg)
  /-- row 30: MRC_p15_1_Rd_c15_c0_7__read_Data_BIST_General_Register, `cccc111000111111dddd111111110000` (R142) -/
  | mrcDBistGeneral (c : Cond) (rd : Reg)
  /-- row 31: MCR_p15_1_Rd_c15_c0_7__write_Data_BIST_General_Register, `cccc111000101111dddd111111110000` (R143) -/
  | mcrDBistGeneral (c : Cond) (rd : Reg)
  /-- row 32: MCR_MRC_p15__any_other_register_or_operation, `cccc1110oooLnnnndddd1111ooo1mmmm` (R125) -/
  | p15Other (c : Cond) (l : Bool) (op1 : BitVec 3) (crn rd : Reg) (op2 : BitVec 3) (crm : Reg)
  /-- row 33: MRC_p14_0_Rd_c0_c0_0__read_comms_channel_status, `cccc111000010000dddd111000010000` (R163) -/
  | mrcCommsStatus (c : Cond) (rd : Reg)
  /-- row 34: MRC_p14_0_Rd_c1_c0_0__read_comms_channel_data, `cccc111000010001dddd111000010000` (R164) -/
  | mrcCommsData (c : Cond) (rd : Reg)
  /-- row 35: MCR_p14_0_Rd_c1_c0_0__write_comms_channel_data, `cccc111000000001dddd111000010000` (R165) -/
  | mcrCommsData (c : Cond) (rd : Reg)
  /-- row 36: MRC_p14_0_Rd_c2_c0_0__read_monitor_mode_debug_status, `cccc111000010010dddd111000010000` (R166) -/
  | mrcMonitorStatus (c : Cond) (rd : Reg)
  /-- row 37: MCR_p14_0_Rd_c2_c0_0__write_monitor_mode_debug_status, `cccc111000000010dddd111000010000` (R167) -/
  | mcrMonitorStatus (c : Cond) (rd : Reg)
  /-- row 38: MCR_MRC_p14__any_other_register, `cccc1110oooLnnnndddd1110ooo1mmmm` (R168) -/
  | p14Other (c : Cond) (l : Bool) (op1 : BitVec 3) (crn rd : Reg) (op2 : BitVec 3) (crm : Reg)
  /-- row 39: LDC_STC_MCRR_MRRC_to_p15, `cccc110xxxxxxxxxxxxx1111xxxxxxxx` (R126) -/
  | p15Transfer (c : Cond) (hi : BitVec 13) (lo : BitVec 8)
  /-- row 40: CDP_to_p15, `cccc1110xxxxxxxxxxxx1111xxx0xxxx` (R126) -/
  | p15Cdp (c : Cond) (op1 : BitVec 4) (crn crd : Reg) (op2 : BitVec 3) (crm : Reg)
  /-- row 41: LDC_STC_MCRR_MRRC_to_p14, `cccc110xxxxxxxxxxxxx1110xxxxxxxx` (R168) -/
  | p14Transfer (c : Cond) (hi : BitVec 13) (lo : BitVec 8)
  /-- row 42: CDP_to_p14, `cccc1110xxxxxxxxxxxx1110xxx0xxxx` (R168) -/
  | p14Cdp (c : Cond) (op1 : BitVec 4) (crn crd : Reg) (op2 : BitVec 3) (crm : Reg)
  /-- row 43: MCRR, `cccc11000100nnnnddddppppoooommmm` (R159) -/
  | mcrr (c : Cond) (rn rd cp : Reg) (op : BitVec 4) (crm : Reg)
  /-- row 44: MRRC, `cccc11000101nnnnddddppppoooommmm` (R160) -/
  | mrrc (c : Cond) (rn rd cp : Reg) (op : BitVec 4) (crm : Reg)
  /-- row 45: UNALLOCATED, `cccc1100000xxxxxxxxxxxxxxxxxxxxx` (R113) -/
  | unallocCp (c : Cond) (b20 : Bool) (rn rd cp : Reg) (lo : BitVec 8)
  /-- row 46: LDC, `cccc110PUNW1nnnnddddppppiiiiiiii` (R155) -/
  | ldc (c : Cond) (a : CpIndexing) (n : Bool) (rn crd cp : Reg) (imm : BitVec 8)
  /-- row 47: STC, `cccc110PUNW0nnnnddddppppiiiiiiii` (R156) -/
  | stc (c : Cond) (a : CpIndexing) (n : Bool) (rn crd cp : Reg) (imm : BitVec 8)
  /-- row 48: CDP, `cccc1110oooonnnnddddppppooo0mmmm` (R154) -/
  | cdp (c : Cond) (op1 : BitVec 4) (crn crd cp : Reg) (op2 : BitVec 3) (crm : Reg)
  /-- row 49: MCR, `cccc1110ooo0nnnnddddppppooo1mmmm` (R157) -/
  | mcr (c : Cond) (op1 : BitVec 3) (crn rd cp : Reg) (op2 : BitVec 3) (crm : Reg)
  /-- row 50: MRC, `cccc1110ooo1nnnnddddppppooo1mmmm` (R158) -/
  | mrc (c : Cond) (op1 : BitVec 3) (crn rd cp : Reg) (op2 : BitVec 3) (crm : Reg)
  /-- row 51: SWI, `cccc1111iiiiiiiiiiiiiiiiiiiiiiii` (R213) -/
  | swi (c : Cond) (imm : BitVec 24)
  /-- row 52: B, `cccc1010iiiiiiiiiiiiiiiiiiiiiiii` (R206) -/
  | b (c : Cond) (imm : BitVec 24)
  /-- row 53: BL, `cccc1011iiiiiiiiiiiiiiiiiiiiiiii` (R207) -/
  | bl (c : Cond) (imm : BitVec 24)
  /-- row 54: LDM__3, `cccc100PU1W1nnnn1rrrrrrrrrrrrrrr` (R239) -/
  | ldmReturn (c : Cond) (p u w : Bool) (rn : Reg) (list : BitVec 15)
  /-- row 55: LDM__2, `cccc100PU1x1nnnn0rrrrrrrrrrrrrrr` (R238) -/
  | ldmUser (c : Cond) (p u w : Bool) (rn : Reg) (list : BitVec 15)
  /-- row 56: LDM__1, `cccc100PU0W1nnnnrrrrrrrrrrrrrrrr` (R237) -/
  | ldm (c : Cond) (p u w : Bool) (rn : Reg) (list : BitVec 16)
  /-- row 57: STM__2, `cccc100PU1x0nnnnrrrrrrrrrrrrrrrr` (R241) -/
  | stmUser (c : Cond) (p u w : Bool) (rn : Reg) (list : BitVec 16)
  /-- row 58: STM__1, `cccc100PU0W0nnnnrrrrrrrrrrrrrrrr` (R240) -/
  | stm (c : Cond) (p u w : Bool) (rn : Reg) (list : BitVec 16)
  /-- row 59: UNDEFINED, `cccc011xxxxxxxxxxxxxxxxxxxx1xxxx` (R315) -/
  | undefinedArm (c : Cond) (hi : BitVec 20) (lo : BitVec 4)
  /-- row 60: LDRT, `cccc0100U011nnnnddddiiiiiiiiiiii` (R224) -/
  | ldrtImm (c : Cond) (u : Bool) (rn rd : Reg) (imm : BitVec 12)
  /-- row 61: LDRT, `cccc0110U011nnnnddddssssstt0mmmm` (R224) -/
  | ldrtReg (c : Cond) (u : Bool) (rn rd : Reg) (sh : BitVec 5) (k : ShiftKind) (rm : Reg)
  /-- row 62: LDRBT, `cccc0100U111nnnnddddiiiiiiiiiiii` (R224) -/
  | ldrbtImm (c : Cond) (u : Bool) (rn rd : Reg) (imm : BitVec 12)
  /-- row 63: LDRBT, `cccc0110U111nnnnddddssssstt0mmmm` (R224) -/
  | ldrbtReg (c : Cond) (u : Bool) (rn rd : Reg) (sh : BitVec 5) (k : ShiftKind) (rm : Reg)
  /-- row 64: STRT, `cccc0100U010nnnnddddiiiiiiiiiiii` (R224) -/
  | strtImm (c : Cond) (u : Bool) (rn rd : Reg) (imm : BitVec 12)
  /-- row 65: STRT, `cccc0110U010nnnnddddssssstt0mmmm` (R224) -/
  | strtReg (c : Cond) (u : Bool) (rn rd : Reg) (sh : BitVec 5) (k : ShiftKind) (rm : Reg)
  /-- row 66: STRBT, `cccc0100U110nnnnddddiiiiiiiiiiii` (R224) -/
  | strbtImm (c : Cond) (u : Bool) (rn rd : Reg) (imm : BitVec 12)
  /-- row 67: STRBT, `cccc0110U110nnnnddddssssstt0mmmm` (R224) -/
  | strbtReg (c : Cond) (u : Bool) (rn rd : Reg) (sh : BitVec 5) (k : ShiftKind) (rm : Reg)
  /-- row 68: LDR, `cccc010PU0W1nnnnddddiiiiiiiiiiii` (R220) -/
  | ldrImm (c : Cond) (x : Indexing) (u : Bool) (rn rd : Reg) (imm : BitVec 12)
  /-- row 69: LDR, `cccc011PU0W1nnnnddddssssstt0mmmm` (R220) -/
  | ldrReg (c : Cond) (x : Indexing) (u : Bool) (rn rd : Reg) (sh : BitVec 5) (k : ShiftKind) (rm : Reg)
  /-- row 70: LDRB, `cccc010PU1W1nnnnddddiiiiiiiiiiii` (R222) -/
  | ldrbImm (c : Cond) (x : Indexing) (u : Bool) (rn rd : Reg) (imm : BitVec 12)
  /-- row 71: LDRB, `cccc011PU1W1nnnnddddssssstt0mmmm` (R222) -/
  | ldrbReg (c : Cond) (x : Indexing) (u : Bool) (rn rd : Reg) (sh : BitVec 5) (k : ShiftKind) (rm : Reg)
  /-- row 72: STR, `cccc010PU0W0nnnnddddiiiiiiiiiiii` (R221) -/
  | strImm (c : Cond) (x : Indexing) (u : Bool) (rn rd : Reg) (imm : BitVec 12)
  /-- row 73: STR, `cccc011PU0W0nnnnddddssssstt0mmmm` (R221) -/
  | strReg (c : Cond) (x : Indexing) (u : Bool) (rn rd : Reg) (sh : BitVec 5) (k : ShiftKind) (rm : Reg)
  /-- row 74: STRB, `cccc010PU1W0nnnnddddiiiiiiiiiiii` (R223) -/
  | strbImm (c : Cond) (x : Indexing) (u : Bool) (rn rd : Reg) (imm : BitVec 12)
  /-- row 75: STRB, `cccc011PU1W0nnnnddddssssstt0mmmm` (R223) -/
  | strbReg (c : Cond) (x : Indexing) (u : Bool) (rn rd : Reg) (sh : BitVec 5) (k : ShiftKind) (rm : Reg)
  /-- row 76: MUL, `cccc0000000Sddddxxxxssss1001mmmm` (R189) -/
  | mul (c : Cond) (sf : Bool) (rd sbz rs rm : Reg)
  /-- row 77: MLA, `cccc0000001Sddddnnnnssss1001mmmm` (R190) -/
  | mla (c : Cond) (sf : Bool) (rd rn rs rm : Reg)
  /-- row 78: UNALLOCATED, `cccc000001xxxxxxxxxxxxxx1001xxxx` (R113) -/
  | unallocArith (c : Cond) (b21 b20 : Bool) (rn rd rs rm : Reg)
  /-- row 79: UMULL, `cccc0000100Shhhhllllssss1001mmmm` (R191) -/
  | umull (c : Cond) (sf : Bool) (rdHi rdLo rs rm : Reg)
  /-- row 80: UMLAL, `cccc0000101Shhhhllllssss1001mmmm` (R192) -/
  | umlal (c : Cond) (sf : Bool) (rdHi rdLo rs rm : Reg)
  /-- row 81: SMULL, `cccc0000110Shhhhllllssss1001mmmm` (R193) -/
  | smull (c : Cond) (sf : Bool) (rdHi rdLo rs rm : Reg)
  /-- row 82: SMLAL, `cccc0000111Shhhhllllssss1001mmmm` (R194) -/
  | smlal (c : Cond) (sf : Bool) (rdHi rdLo rs rm : Reg)
  /-- row 83: SWP, `cccc00010000nnnnddddxxxx1001mmmm` (R231) -/
  | swp (c : Cond) (rn rd sbz rm : Reg)
  /-- row 84: SWPB, `cccc00010100nnnnddddxxxx1001mmmm` (R232) -/
  | swpb (c : Cond) (rn rd sbz rm : Reg)
  /-- row 85: UNALLOCATED, `cccc0001xxxxxxxxxxxxxxxx1001xxxx` (R113) -/
  | unallocExt (c : Cond) (b23 b22 b21 b20 : Bool) (rn rd rs rm : Reg)
  /-- row 86: STRH, `cccc000PU1W0nnnnddddhhhh1011llll` (R226) -/
  | strhImm (c : Cond) (p u w : Bool) (rn rd : Reg) (imm : BitVec 8)
  /-- row 87: STRH, `cccc000PU0W0nnnnddddxxxx1011mmmm` (R226) -/
  | strhReg (c : Cond) (p u w : Bool) (rn rd sbz rm : Reg)
  /-- row 88: LDRD, `cccc000PU1W0nnnnddddhhhh1101llll` (R229) -/
  | ldrdImm (c : Cond) (p u w : Bool) (rn rd : Reg) (imm : BitVec 8)
  /-- row 89: LDRD, `cccc000PU0W0nnnnddddxxxx1101mmmm` (R229) -/
  | ldrdReg (c : Cond) (p u w : Bool) (rn rd sbz rm : Reg)
  /-- row 90: STRD, `cccc000PU1W0nnnnddddhhhh1111llll` (R230) -/
  | strdImm (c : Cond) (p u w : Bool) (rn rd : Reg) (imm : BitVec 8)
  /-- row 91: STRD, `cccc000PU0W0nnnnddddxxxx1111mmmm` (R230) -/
  | strdReg (c : Cond) (p u w : Bool) (rn rd sbz rm : Reg)
  /-- row 92: LDRH, `cccc000PU1W1nnnnddddhhhh1011llll` (R225) -/
  | ldrhImm (c : Cond) (p u w : Bool) (rn rd : Reg) (imm : BitVec 8)
  /-- row 93: LDRH, `cccc000PU0W1nnnnddddxxxx1011mmmm` (R225) -/
  | ldrhReg (c : Cond) (p u w : Bool) (rn rd sbz rm : Reg)
  /-- row 94: LDRSB, `cccc000PU1W1nnnnddddhhhh1101llll` (R227) -/
  | ldrsbImm (c : Cond) (p u w : Bool) (rn rd : Reg) (imm : BitVec 8)
  /-- row 95: LDRSB, `cccc000PU0W1nnnnddddxxxx1101mmmm` (R227) -/
  | ldrsbReg (c : Cond) (p u w : Bool) (rn rd sbz rm : Reg)
  /-- row 96: LDRSH, `cccc000PU1W1nnnnddddhhhh1111llll` (R228) -/
  | ldrshImm (c : Cond) (p u w : Bool) (rn rd : Reg) (imm : BitVec 8)
  /-- row 97: LDRSH, `cccc000PU0W1nnnnddddxxxx1111mmmm` (R228) -/
  | ldrshReg (c : Cond) (p u w : Bool) (rn rd sbz rm : Reg)
  /-- row 98: MRS, `cccc00010R00xxxxddddxxxx0000xxxx` (R211) -/
  | mrs (c : Cond) (r : Bool) (sbo rd sbz1 sbz0 : Reg)
  /-- row 99: MSR__register, `cccc00010R10ffffxxxxxxxx0000mmmm` (R212) -/
  | msrReg (c : Cond) (r : Bool) (mask : BitVec 4) (sbo sbz rm : Reg)
  /-- row 100: BX, `cccc00010010xxxxxxxxxxxx0001mmmm` (R210) -/
  | bx (c : Cond) (sbo2 sbo1 sbo0 rm : Reg)
  /-- row 101: CLZ, `cccc00010110xxxxddddxxxx0001mmmm` (R204) -/
  | clz (c : Cond) (sbo1 rd sbo0 rm : Reg)
  /-- row 102: BLX__2, `cccc00010010xxxxxxxxxxxx0011mmmm` (R209) -/
  | blxReg (c : Cond) (sbo2 sbo1 sbo0 rm : Reg)
  /-- row 103: QADD, `cccc00010000nnnnddddxxxx0101mmmm` (R200) -/
  | qadd (c : Cond) (rn rd sbz rm : Reg)
  /-- row 104: QSUB, `cccc00010010nnnnddddxxxx0101mmmm` (R201) -/
  | qsub (c : Cond) (rn rd sbz rm : Reg)
  /-- row 105: QDADD, `cccc00010100nnnnddddxxxx0101mmmm` (R202) -/
  | qdadd (c : Cond) (rn rd sbz rm : Reg)
  /-- row 106: QDSUB, `cccc00010110nnnnddddxxxx0101mmmm` (R203) -/
  | qdsub (c : Cond) (rn rd sbz rm : Reg)
  /-- row 107: BKPT, `cccc00010010iiiiiiiiiiii0111iiii` (R214) -/
  | bkpt (c : Cond) (immHi : BitVec 12) (immLo : BitVec 4)
  /-- row 108: SMLA<x><y>, `cccc00010000ddddnnnnssss1yx0mmmm` (R196) -/
  | smlaxy (c : Cond) (x y : Bool) (rd rn rs rm : Reg)
  /-- row 109: SMLAW<y>, `cccc00010010ddddnnnnssss1y00mmmm` (R198) -/
  | smlawy (c : Cond) (y : Bool) (rd rn rs rm : Reg)
  /-- row 110: SMULW<y>, `cccc00010010ddddxxxxssss1y10mmmm` (R197) -/
  | smulwy (c : Cond) (y : Bool) (rd sbz rs rm : Reg)
  /-- row 111: SMLAL<x><y>, `cccc00010100hhhhllllssss1yx0mmmm` (R199) -/
  | smlalxy (c : Cond) (x y : Bool) (rdHi rdLo rs rm : Reg)
  /-- row 112: SMUL<x><y>, `cccc00010110ddddxxxxssss1yx0mmmm` (R195) -/
  | smulxy (c : Cond) (x y : Bool) (rd sbz rs rm : Reg)
  /-- row 113: UNALLOCATED, `cccc00010xx0xxxxxxxxxxxxxxxxxxxx` (R113) -/
  | unallocMisc (c : Cond) (b22 b21 : Bool) (rn rd rs : Reg) (b7 b6 b5 b4 : Bool) (rm : Reg)
  /-- row 114: MSR__immediate, `cccc00110R10ffffxxxxrrrriiiiiiii` (R212) -/
  | msrImm (c : Cond) (r : Bool) (mask : BitVec 4) (sbo : Reg) (rot : BitVec 4) (imm : BitVec 8)
  /-- row 115: UNDEFINED, `cccc00110x00xxxxxxxxxxxxxxxxxxxx` (R315) -/
  | undefinedArm2 (c : Cond) (b22 : Bool) (rn rd : Reg) (rot : BitVec 4) (imm : BitVec 8)
  /-- row 116: AND, `cccc0000000Snnnnddddssssstt0mmmm` (R172) -/
  | andShift (c : Cond) (sf : Bool) (rn rd : Reg) (sh : BitVec 5) (k : ShiftKind) (rm : Reg)
  /-- row 117: AND, `cccc0000000Snnnnddddssss0tt1mmmm` (R172) -/
  | andRegShift (c : Cond) (sf : Bool) (rn rd rs : Reg) (k : ShiftKind) (rm : Reg)
  /-- row 118: AND, `cccc0010000Snnnnddddrrrriiiiiiii` (R172) -/
  | andImm (c : Cond) (sf : Bool) (rn rd : Reg) (rot : BitVec 4) (imm : BitVec 8)
  /-- row 119: EOR, `cccc0000001Snnnnddddssssstt0mmmm` (R173) -/
  | eorShift (c : Cond) (sf : Bool) (rn rd : Reg) (sh : BitVec 5) (k : ShiftKind) (rm : Reg)
  /-- row 120: EOR, `cccc0000001Snnnnddddssss0tt1mmmm` (R173) -/
  | eorRegShift (c : Cond) (sf : Bool) (rn rd rs : Reg) (k : ShiftKind) (rm : Reg)
  /-- row 121: EOR, `cccc0010001Snnnnddddrrrriiiiiiii` (R173) -/
  | eorImm (c : Cond) (sf : Bool) (rn rd : Reg) (rot : BitVec 4) (imm : BitVec 8)
  /-- row 122: SUB, `cccc0000010Snnnnddddssssstt0mmmm` (R174) -/
  | subShift (c : Cond) (sf : Bool) (rn rd : Reg) (sh : BitVec 5) (k : ShiftKind) (rm : Reg)
  /-- row 123: SUB, `cccc0000010Snnnnddddssss0tt1mmmm` (R174) -/
  | subRegShift (c : Cond) (sf : Bool) (rn rd rs : Reg) (k : ShiftKind) (rm : Reg)
  /-- row 124: SUB, `cccc0010010Snnnnddddrrrriiiiiiii` (R174) -/
  | subImm (c : Cond) (sf : Bool) (rn rd : Reg) (rot : BitVec 4) (imm : BitVec 8)
  /-- row 125: RSB, `cccc0000011Snnnnddddssssstt0mmmm` (R175) -/
  | rsbShift (c : Cond) (sf : Bool) (rn rd : Reg) (sh : BitVec 5) (k : ShiftKind) (rm : Reg)
  /-- row 126: RSB, `cccc0000011Snnnnddddssss0tt1mmmm` (R175) -/
  | rsbRegShift (c : Cond) (sf : Bool) (rn rd rs : Reg) (k : ShiftKind) (rm : Reg)
  /-- row 127: RSB, `cccc0010011Snnnnddddrrrriiiiiiii` (R175) -/
  | rsbImm (c : Cond) (sf : Bool) (rn rd : Reg) (rot : BitVec 4) (imm : BitVec 8)
  /-- row 128: ADD, `cccc0000100Snnnnddddssssstt0mmmm` (R176) -/
  | addShift (c : Cond) (sf : Bool) (rn rd : Reg) (sh : BitVec 5) (k : ShiftKind) (rm : Reg)
  /-- row 129: ADD, `cccc0000100Snnnnddddssss0tt1mmmm` (R176) -/
  | addRegShift (c : Cond) (sf : Bool) (rn rd rs : Reg) (k : ShiftKind) (rm : Reg)
  /-- row 130: ADD, `cccc0010100Snnnnddddrrrriiiiiiii` (R176) -/
  | addImm (c : Cond) (sf : Bool) (rn rd : Reg) (rot : BitVec 4) (imm : BitVec 8)
  /-- row 131: ADC, `cccc0000101Snnnnddddssssstt0mmmm` (R177) -/
  | adcShift (c : Cond) (sf : Bool) (rn rd : Reg) (sh : BitVec 5) (k : ShiftKind) (rm : Reg)
  /-- row 132: ADC, `cccc0000101Snnnnddddssss0tt1mmmm` (R177) -/
  | adcRegShift (c : Cond) (sf : Bool) (rn rd rs : Reg) (k : ShiftKind) (rm : Reg)
  /-- row 133: ADC, `cccc0010101Snnnnddddrrrriiiiiiii` (R177) -/
  | adcImm (c : Cond) (sf : Bool) (rn rd : Reg) (rot : BitVec 4) (imm : BitVec 8)
  /-- row 134: SBC, `cccc0000110Snnnnddddssssstt0mmmm` (R178) -/
  | sbcShift (c : Cond) (sf : Bool) (rn rd : Reg) (sh : BitVec 5) (k : ShiftKind) (rm : Reg)
  /-- row 135: SBC, `cccc0000110Snnnnddddssss0tt1mmmm` (R178) -/
  | sbcRegShift (c : Cond) (sf : Bool) (rn rd rs : Reg) (k : ShiftKind) (rm : Reg)
  /-- row 136: SBC, `cccc0010110Snnnnddddrrrriiiiiiii` (R178) -/
  | sbcImm (c : Cond) (sf : Bool) (rn rd : Reg) (rot : BitVec 4) (imm : BitVec 8)
  /-- row 137: RSC, `cccc0000111Snnnnddddssssstt0mmmm` (R179) -/
  | rscShift (c : Cond) (sf : Bool) (rn rd : Reg) (sh : BitVec 5) (k : ShiftKind) (rm : Reg)
  /-- row 138: RSC, `cccc0000111Snnnnddddssss0tt1mmmm` (R179) -/
  | rscRegShift (c : Cond) (sf : Bool) (rn rd rs : Reg) (k : ShiftKind) (rm : Reg)
  /-- row 139: RSC, `cccc0010111Snnnnddddrrrriiiiiiii` (R179) -/
  | rscImm (c : Cond) (sf : Bool) (rn rd : Reg) (rot : BitVec 4) (imm : BitVec 8)
  /-- row 140: TST, `cccc00010001nnnnxxxxssssstt0mmmm` (R180) -/
  | tstShift (c : Cond) (rn sbz : Reg) (sh : BitVec 5) (k : ShiftKind) (rm : Reg)
  /-- row 141: TST, `cccc00010001nnnnxxxxssss0tt1mmmm` (R180) -/
  | tstRegShift (c : Cond) (rn sbz rs : Reg) (k : ShiftKind) (rm : Reg)
  /-- row 142: TST, `cccc00110001nnnnxxxxrrrriiiiiiii` (R180) -/
  | tstImm (c : Cond) (rn sbz : Reg) (rot : BitVec 4) (imm : BitVec 8)
  /-- row 143: TEQ, `cccc00010011nnnnxxxxssssstt0mmmm` (R181) -/
  | teqShift (c : Cond) (rn sbz : Reg) (sh : BitVec 5) (k : ShiftKind) (rm : Reg)
  /-- row 144: TEQ, `cccc00010011nnnnxxxxssss0tt1mmmm` (R181) -/
  | teqRegShift (c : Cond) (rn sbz rs : Reg) (k : ShiftKind) (rm : Reg)
  /-- row 145: TEQ, `cccc00110011nnnnxxxxrrrriiiiiiii` (R181) -/
  | teqImm (c : Cond) (rn sbz : Reg) (rot : BitVec 4) (imm : BitVec 8)
  /-- row 146: CMP, `cccc00010101nnnnxxxxssssstt0mmmm` (R182) -/
  | cmpShift (c : Cond) (rn sbz : Reg) (sh : BitVec 5) (k : ShiftKind) (rm : Reg)
  /-- row 147: CMP, `cccc00010101nnnnxxxxssss0tt1mmmm` (R182) -/
  | cmpRegShift (c : Cond) (rn sbz rs : Reg) (k : ShiftKind) (rm : Reg)
  /-- row 148: CMP, `cccc00110101nnnnxxxxrrrriiiiiiii` (R182) -/
  | cmpImm (c : Cond) (rn sbz : Reg) (rot : BitVec 4) (imm : BitVec 8)
  /-- row 149: CMN, `cccc00010111nnnnxxxxssssstt0mmmm` (R183) -/
  | cmnShift (c : Cond) (rn sbz : Reg) (sh : BitVec 5) (k : ShiftKind) (rm : Reg)
  /-- row 150: CMN, `cccc00010111nnnnxxxxssss0tt1mmmm` (R183) -/
  | cmnRegShift (c : Cond) (rn sbz rs : Reg) (k : ShiftKind) (rm : Reg)
  /-- row 151: CMN, `cccc00110111nnnnxxxxrrrriiiiiiii` (R183) -/
  | cmnImm (c : Cond) (rn sbz : Reg) (rot : BitVec 4) (imm : BitVec 8)
  /-- row 152: ORR, `cccc0001100Snnnnddddssssstt0mmmm` (R184) -/
  | orrShift (c : Cond) (sf : Bool) (rn rd : Reg) (sh : BitVec 5) (k : ShiftKind) (rm : Reg)
  /-- row 153: ORR, `cccc0001100Snnnnddddssss0tt1mmmm` (R184) -/
  | orrRegShift (c : Cond) (sf : Bool) (rn rd rs : Reg) (k : ShiftKind) (rm : Reg)
  /-- row 154: ORR, `cccc0011100Snnnnddddrrrriiiiiiii` (R184) -/
  | orrImm (c : Cond) (sf : Bool) (rn rd : Reg) (rot : BitVec 4) (imm : BitVec 8)
  /-- row 155: MOV, `cccc0001101Sxxxxddddssssstt0mmmm` (R185) -/
  | movShift (c : Cond) (sf : Bool) (sbz rd : Reg) (sh : BitVec 5) (k : ShiftKind) (rm : Reg)
  /-- row 156: MOV, `cccc0001101Sxxxxddddssss0tt1mmmm` (R185) -/
  | movRegShift (c : Cond) (sf : Bool) (sbz rd rs : Reg) (k : ShiftKind) (rm : Reg)
  /-- row 157: MOV, `cccc0011101Sxxxxddddrrrriiiiiiii` (R185) -/
  | movImm (c : Cond) (sf : Bool) (sbz rd : Reg) (rot : BitVec 4) (imm : BitVec 8)
  /-- row 158: BIC, `cccc0001110Snnnnddddssssstt0mmmm` (R186) -/
  | bicShift (c : Cond) (sf : Bool) (rn rd : Reg) (sh : BitVec 5) (k : ShiftKind) (rm : Reg)
  /-- row 159: BIC, `cccc0001110Snnnnddddssss0tt1mmmm` (R186) -/
  | bicRegShift (c : Cond) (sf : Bool) (rn rd rs : Reg) (k : ShiftKind) (rm : Reg)
  /-- row 160: BIC, `cccc0011110Snnnnddddrrrriiiiiiii` (R186) -/
  | bicImm (c : Cond) (sf : Bool) (rn rd : Reg) (rot : BitVec 4) (imm : BitVec 8)
  /-- row 161: MVN, `cccc0001111Sxxxxddddssssstt0mmmm` (R187) -/
  | mvnShift (c : Cond) (sf : Bool) (sbz rd : Reg) (sh : BitVec 5) (k : ShiftKind) (rm : Reg)
  /-- row 162: MVN, `cccc0001111Sxxxxddddssss0tt1mmmm` (R187) -/
  | mvnRegShift (c : Cond) (sf : Bool) (sbz rd rs : Reg) (k : ShiftKind) (rm : Reg)
  /-- row 163: MVN, `cccc0011111Sxxxxddddrrrriiiiiiii` (R187) -/
  | mvnImm (c : Cond) (sf : Bool) (sbz rd : Reg) (rot : BitVec 4) (imm : BitVec 8)
  /-- row 164: LSL__1, `00000iiiiimmmddd` (R244) -/
  | tLslImm (imm : BitVec 5) (rm rd : LoReg)
  /-- row 165: LSR__1, `00001iiiiimmmddd` (R245) -/
  | tLsrImm (imm : BitVec 5) (rm rd : LoReg)
  /-- row 166: ASR__1, `00010iiiiimmmddd` (R246) -/
  | tAsrImm (imm : BitVec 5) (rm rd : LoReg)
  /-- row 167: ADD__3, `0001100mmmnnnddd` (R247) -/
  | tAddReg (rm rn rd : LoReg)
  /-- row 168: SUB__3, `0001101mmmnnnddd` (R248) -/
  | tSubReg (rm rn rd : LoReg)
  /-- row 169: ADD__1, `0001110iiinnnddd` (R249) -/
  | tAddImm3 (imm : BitVec 3) (rn rd : LoReg)
  /-- row 170: SUB__1, `0001111iiinnnddd` (R250) -/
  | tSubImm3 (imm : BitVec 3) (rn rd : LoReg)
  /-- row 171: MOV__1, `00100dddiiiiiiii` (R251) -/
  | tMovImm (rd : LoReg) (imm : BitVec 8)
  /-- row 172: CMP__1, `00101nnniiiiiiii` (R252) -/
  | tCmpImm (rn : LoReg) (imm : BitVec 8)
  /-- row 173: ADD__2, `00110dddiiiiiiii` (R253) -/
  | tAddImm8 (rd : LoReg) (imm : BitVec 8)
  /-- row 174: SUB__2, `00111dddiiiiiiii` (R254) -/
  | tSubImm8 (rd : LoReg) (imm : BitVec 8)
  /-- row 175: AND, `0100000000mmmddd` (R255) -/
  | tAnd (rm rd : LoReg)
  /-- row 176: EOR, `0100000001mmmddd` (R256) -/
  | tEor (rm rd : LoReg)
  /-- row 177: LSL__2, `0100000010mmmddd` (R257) -/
  | tLslReg (rs rd : LoReg)
  /-- row 178: LSR__2, `0100000011mmmddd` (R258) -/
  | tLsrReg (rs rd : LoReg)
  /-- row 179: ASR__2, `0100000100mmmddd` (R259) -/
  | tAsrReg (rs rd : LoReg)
  /-- row 180: ADC, `0100000101mmmddd` (R260) -/
  | tAdc (rm rd : LoReg)
  /-- row 181: SBC, `0100000110mmmddd` (R261) -/
  | tSbc (rm rd : LoReg)
  /-- row 182: ROR, `0100000111mmmddd` (R262) -/
  | tRorReg (rs rd : LoReg)
  /-- row 183: TST, `0100001000mmmddd` (R263) -/
  | tTst (rm rn : LoReg)
  /-- row 184: NEG, `0100001001mmmddd` (R264) -/
  | tNeg (rm rd : LoReg)
  /-- row 185: CMP__2, `0100001010mmmddd` (R265) -/
  | tCmpReg (rm rn : LoReg)
  /-- row 186: CMN, `0100001011mmmddd` (R266) -/
  | tCmn (rm rn : LoReg)
  /-- row 187: ORR, `0100001100mmmddd` (R267) -/
  | tOrr (rm rd : LoReg)
  /-- row 188: MUL, `0100001101mmmddd` (R268) -/
  | tMul (rm rd : LoReg)
  /-- row 189: BIC, `0100001110mmmddd` (R269) -/
  | tBic (rm rd : LoReg)
  /-- row 190: MVN, `0100001111mmmddd` (R270) -/
  | tMvn (rm rd : LoReg)
  /-- row 191: ADD__4, `01000100hhmmmddd` (R271) -/
  | tAddHi (rm rd : Reg)
  /-- row 192: CMP__3, `01000101hhmmmddd` (R272) -/
  | tCmpHi (rm rn : Reg)
  /-- row 193: MOV__3, `01000110hhmmmddd` (R273) -/
  | tMovHi (rm rd : Reg)
  /-- row 194: BX, `010001110hmmmxxx` (R305) -/
  | tBx (rm : Reg) (sbz : BitVec 3)
  /-- row 195: BLX__2, `010001111hmmmxxx` (R306) -/
  | tBlxReg (rm : Reg) (sbz : BitVec 3)
  /-- row 196: LDR__3, `01001dddiiiiiiii` (R279) -/
  | tLdrLit (rd : LoReg) (imm : BitVec 8)
  /-- row 197: STR__2, `0101000mmmnnnddd` (R287) -/
  | tStrReg (rm rn rd : LoReg)
  /-- row 198: STRH__2, `0101001mmmnnnddd` (R289) -/
  | tStrhReg (rm rn rd : LoReg)
  /-- row 199: STRB__2, `0101010mmmnnnddd` (R291) -/
  | tStrbReg (rm rn rd : LoReg)
  /-- row 200: LDRSB, `0101011mmmnnnddd` (R292) -/
  | tLdrsbReg (rm rn rd : LoReg)
  /-- row 201: LDR__2, `0101100mmmnnnddd` (R286) -/
  | tLdrReg (rm rn rd : LoReg)
  /-- row 202: LDRH__2, `0101101mmmnnnddd` (R288) -/
  | tLdrhReg (rm rn rd : LoReg)
  /-- row 203: LDRB__2, `0101110mmmnnnddd` (R290) -/
  | tLdrbReg (rm rn rd : LoReg)
  /-- row 204: LDRSH, `0101111mmmnnnddd` (R293) -/
  | tLdrshReg (rm rn rd : LoReg)
  /-- row 205: STR__1, `01100iiiiinnnddd` (R281) -/
  | tStrImm (imm : BitVec 5) (rn rd : LoReg)
  /-- row 206: LDR__1, `01101iiiiinnnddd` (R280) -/
  | tLdrImm (imm : BitVec 5) (rn rd : LoReg)
  /-- row 207: STRB__1, `01110iiiiinnnddd` (R283) -/
  | tStrbImm (imm : BitVec 5) (rn rd : LoReg)
  /-- row 208: LDRB__1, `01111iiiiinnnddd` (R282) -/
  | tLdrbImm (imm : BitVec 5) (rn rd : LoReg)
  /-- row 209: STRH__1, `10000iiiiinnnddd` (R285) -/
  | tStrhImm (imm : BitVec 5) (rn rd : LoReg)
  /-- row 210: LDRH__1, `10001iiiiinnnddd` (R284) -/
  | tLdrhImm (imm : BitVec 5) (rn rd : LoReg)
  /-- row 211: STR__3, `10010dddiiiiiiii` (R295) -/
  | tStrSp (rd : LoReg) (imm : BitVec 8)
  /-- row 212: LDR__4, `10011dddiiiiiiii` (R294) -/
  | tLdrSp (rd : LoReg) (imm : BitVec 8)
  /-- row 213: ADD__5, `10100dddiiiiiiii` (R274) -/
  | tAddPcImm (rd : LoReg) (imm : BitVec 8)
  /-- row 214: ADD__6, `10101dddiiiiiiii` (R275) -/
  | tAddSpImm (rd : LoReg) (imm : BitVec 8)
  /-- row 215: ADD__7, `101100000iiiiiii` (R276) -/
  | tAddSp (imm : BitVec 7)
  /-- row 216: SUB__4, `101100001iiiiiii` (R277) -/
  | tSubSp (imm : BitVec 7)
  /-- row 217: PUSH, `1011010Rrrrrrrrr` (R296) -/
  | tPush (r : Bool) (list : BitVec 8)
  /-- row 218: POP, `1011110Rrrrrrrrr` (R297) -/
  | tPop (r : Bool) (list : BitVec 8)
  /-- row 219: BKPT, `10111110iiiiiiii` (R308) -/
  | tBkpt (imm : BitVec 8)
  /-- row 220: UNALLOCATED, `1011xxxxxxxxxxxx` (R116) -/
  | unallocThumbMisc (bits : BitVec 12)
  /-- row 221: STMIA, `11000nnnrrrrrrrr` (R299) -/
  | tStmia (rn : LoReg) (list : BitVec 8)
  /-- row 222: LDMIA, `11001nnnrrrrrrrr` (R298) -/
  | tLdmia (rn : LoReg) (list : BitVec 8)
  /-- row 223: UNDEFINED, `11011110xxxxxxxx` (R315) -/
  | undefinedThumb (imm : BitVec 8)
  /-- row 224: SWI, `11011111iiiiiiii` (R307) -/
  | tSwi (imm : BitVec 8)
  /-- row 225: B__1, `1101cccciiiiiiii` (R300) -/
  | tBCond (c : Cond) (imm : BitVec 8)
  /-- row 226: B__2, `11100iiiiiiiiiii` (R301) -/
  | tB (imm : BitVec 11)
  /-- row 227: UNALLOCATED, `11101xxxxxxxxxx1` (R116) -/
  | unallocBlxSuffix (bits : BitVec 10)
  /-- row 228: BLX__1__suffix, `11101iiiiiiiiii0` (R304) -/
  | tBlxSuffix (imm : BitVec 10)
  /-- row 229: BL_BLX__1__prefix, `11110iiiiiiiiiii` (R302) -/
  | tBlPrefix (imm : BitVec 11)
  /-- row 230: BL_suffix, `11111iiiiiiiiiii` (R303) -/
  | tBlSuffix (imm : BitVec 11)
deriving DecidableEq, Repr

end Sys2Proof
end

