-- ==== Sys2Proof/WellFormed.lean ====
section
/-! DEFINITION. Which terms of `Instr` stand for an encoding. The decoder takes the first row of the table that
matches (R122), so a row that catches what earlier rows left over holds only the words they left over. -/

namespace Sys2Proof

/-- Coprocessor numbers 0 to 13: the external coprocessors (R4). -/
def externalCp (cp : Reg) : Bool := cp != 14 && cp != 15

/-- The MCR and MRC forms of p15 that rule R123 lists. -/
def p15Named (l : Bool) (op1 : BitVec 3) (crn : Reg) (op2 : BitVec 3) (crm : Reg) : Bool :=
  (l && op1 == 0 && crn == 0 && crm == 0) ||
  (op1 == 0 && crn == 1 && crm == 0 && op2 == 0) ||
  (!l && op1 == 0 && crn == 7 && crm == 0 && op2 == 4) ||
  (!l && op1 == 0 && crn == 15 && crm == 8 && op2 == 2) ||
  (!l && op1 == 0 && crn == 7 && crm == 10 && op2 == 4) ||
  (op1 == 0 && crn == 13 && op2 == 0) ||
  (op1 == 1 && crn == 15 && crm == 1 && op2 == 0) ||
  (op1 == 1 && crn == 15 && crm == 0 && (op2 == 1 || op2 == 2 || op2 == 3 || op2 == 6 || op2 == 7))

/-- The MCR and MRC forms of p14 that rule R162 lists. -/
def p14Named (l : Bool) (op1 : BitVec 3) (crn : Reg) (op2 : BitVec 3) (crm : Reg) : Bool :=
  op1 == 0 && op2 == 0 && crm == 0 && ((l && crn == 0) || crn == 1 || crn == 2)

/-- Bits [27:0] of the defined instructions of the unconditional space (R111) and of the two patterns of the
coprocessor space that have rows of their own. -/
def definedUncond (bits : BitVec 28) : Bool :=
  let b := bits.getLsbD
  (b 27 && !b 26 && b 25) || (b 27 && b 26 && !b 25) || (b 27 && b 26 && b 25 && !b 24) ||
  (!b 27 && b 26 && !b 25 && b 24 && b 22 && !b 21 && b 20 && bits.extractLsb' 12 4 == 15) ||
  (!b 27 && b 26 && b 25 && b 24 && b 22 && !b 21 && b 20 && bits.extractLsb' 12 4 == 15 && !b 4)

/-- The defined instructions of the miscellaneous and DSP space, by bits [22:21] and [7:4] (R112). With bits 7 and
4 both set the word is not of that space. -/
def definedMisc (b22 b21 b7 b6 b5 b4 : Bool) : Bool :=
  (b7 && b4) ||
  (b7 && !b4) ||
  (!b7 && !b6 && !b5 && !b4) ||
  (!b7 && !b6 && !b5 && b4 && b21) ||
  (!b7 && !b6 && b5 && b4 && !b22 && b21) ||
  (!b7 && b6 && !b5 && b4) ||
  (!b7 && b6 && b5 && b4 && !b22 && b21)

/-- Bits [11:0] of the defined Thumb instructions 1011 xxxx xxxx xxxx (R116). -/
def definedThumbMisc (bits : BitVec 12) : Bool :=
  let b := bits.getLsbD
  (!b 11 && !b 10 && !b 9 && !b 8) || (b 10 && !b 9) || (b 11 && b 10 && b 9 && !b 8)

/-- The term stands for an encoding: no earlier row of the table takes its word. -/
def Instr.wellFormed : Instr → Bool
  | .pldImm _ _ _ => true
  | .pldReg _ _ _ _ _ => true
  | .blxImm _ _ => true
  | .unallocUncondLsm _ => true
  | .unallocUncondMcrr _ => true
  | .ldc2 _ _ _ _ _ _ => true
  | .stc2 _ _ _ _ _ _ => true
  | .cdp2 _ _ _ _ _ _ => true
  | .mcr2 _ _ _ _ _ _ => true
  | .mrc2 _ _ _ _ _ _ => true
  | .unallocUncond bits => !definedUncond bits
  | .mrcTcmSize _ _ => true
  | .mrcIdCode _ _ op2 => op2 != 2
  | .mrcControl _ _ => true
  | .mcrControl _ _ => true
  | .mcrWaitForInterrupt _ _ => true
  | .mcrWaitForInterruptLegacy _ _ => true
  | .mcrDrainWriteBuffer _ _ => true
  | .mrcProcId _ _ _ => true
  | .mcrProcId _ _ _ => true
  | .mrcConfigControl _ _ => true
  | .mcrConfigControl _ _ => true
  | .mrcBistControl _ _ => true
  | .mcrBistControl _ _ => true
  | .mrcIBistAddress _ _ => true
  | .mcrIBistAddress _ _ => true
  | .mrcIBistGeneral _ _ => true
  | .mcrIBistGeneral _ _ => true
  | .mrcDBistAddress _ _ => true
  | .mcrDBistAddress _ _ => true
  | .mrcDBistGeneral _ _ => true
  | .mcrDBistGeneral _ _ => true
  | .p15Other _ l op1 crn _ op2 crm => !p15Named l op1 crn op2 crm
  | .mrcCommsStatus _ _ => true
  | .mrcCommsData _ _ => true
  | .mcrCommsData _ _ => true
  | .mrcMonitorStatus _ _ => true
  | .mcrMonitorStatus _ _ => true
  | .p14Other _ l op1 crn _ op2 crm => !p14Named l op1 crn op2 crm
  | .p15Transfer _ _ _ => true
  | .p15Cdp _ _ _ _ _ _ => true
  | .p14Transfer _ _ _ => true
  | .p14Cdp _ _ _ _ _ _ => true
  | .mcrr _ _ _ cp _ _ => externalCp cp
  | .mrrc _ _ _ cp _ _ => externalCp cp
  | .unallocCp _ _ _ _ cp _ => externalCp cp
  | .ldc _ _ _ _ _ cp _ => externalCp cp
  | .stc _ _ _ _ _ cp _ => externalCp cp
  | .cdp _ _ _ _ cp _ _ => externalCp cp
  | .mcr _ _ _ _ cp _ _ => externalCp cp
  | .mrc _ _ _ _ cp _ _ => externalCp cp
  | .swi _ _ => true
  | .b _ _ => true
  | .bl _ _ => true
  | .ldmReturn _ _ _ _ _ _ => true
  | .ldmUser _ _ _ _ _ _ => true
  | .ldm _ _ _ _ _ _ => true
  | .stmUser _ _ _ _ _ _ => true
  | .stm _ _ _ _ _ _ => true
  | .undefinedArm _ _ _ => true
  | .ldrtImm _ _ _ _ _ => true
  | .ldrtReg _ _ _ _ _ _ _ => true
  | .ldrbtImm _ _ _ _ _ => true
  | .ldrbtReg _ _ _ _ _ _ _ => true
  | .strtImm _ _ _ _ _ => true
  | .strtReg _ _ _ _ _ _ _ => true
  | .strbtImm _ _ _ _ _ => true
  | .strbtReg _ _ _ _ _ _ _ => true
  | .ldrImm _ _ _ _ _ _ => true
  | .ldrReg _ _ _ _ _ _ _ _ => true
  | .ldrbImm _ _ _ _ _ _ => true
  | .ldrbReg _ _ _ _ _ _ _ _ => true
  | .strImm _ _ _ _ _ _ => true
  | .strReg _ _ _ _ _ _ _ _ => true
  | .strbImm _ _ _ _ _ _ => true
  | .strbReg _ _ _ _ _ _ _ _ => true
  | .mul _ _ _ _ _ _ => true
  | .mla _ _ _ _ _ _ => true
  | .unallocArith _ _ _ _ _ _ _ => true
  | .umull _ _ _ _ _ _ => true
  | .umlal _ _ _ _ _ _ => true
  | .smull _ _ _ _ _ _ => true
  | .smlal _ _ _ _ _ _ => true
  | .swp _ _ _ _ _ => true
  | .swpb _ _ _ _ _ => true
  | .unallocExt _ b23 _ b21 b20 _ _ _ _ => !(!b23 && !b21 && !b20)
  | .strhImm _ _ _ _ _ _ _ => true
  | .strhReg _ _ _ _ _ _ _ _ => true
  | .ldrdImm _ _ _ _ _ _ _ => true
  | .ldrdReg _ _ _ _ _ _ _ _ => true
  | .strdImm _ _ _ _ _ _ _ => true
  | .strdReg _ _ _ _ _ _ _ _ => true
  | .ldrhImm _ _ _ _ _ _ _ => true
  | .ldrhReg _ _ _ _ _ _ _ _ => true
  | .ldrsbImm _ _ _ _ _ _ _ => true
  | .ldrsbReg _ _ _ _ _ _ _ _ => true
  | .ldrshImm _ _ _ _ _ _ _ => true
  | .ldrshReg _ _ _ _ _ _ _ _ => true
  | .mrs _ _ _ _ _ _ => true
  | .msrReg _ _ _ _ _ _ => true
  | .bx _ _ _ _ _ => true
  | .clz _ _ _ _ _ => true
  | .blxReg _ _ _ _ _ => true
  | .qadd _ _ _ _ _ => true
  | .qsub _ _ _ _ _ => true
  | .qdadd _ _ _ _ _ => true
  | .qdsub _ _ _ _ _ => true
  | .bkpt _ _ _ => true
  | .smlaxy _ _ _ _ _ _ _ => true
  | .smlawy _ _ _ _ _ _ => true
  | .smulwy _ _ _ _ _ _ => true
  | .smlalxy _ _ _ _ _ _ _ => true
  | .smulxy _ _ _ _ _ _ _ => true
  | .unallocMisc _ b22 b21 _ _ _ b7 b6 b5 b4 _ => !definedMisc b22 b21 b7 b6 b5 b4
  | .msrImm _ _ _ _ _ _ => true
  | .undefinedArm2 _ _ _ _ _ _ => true
  | .andShift _ _ _ _ _ _ _ => true
  | .andRegShift _ _ _ _ _ _ _ => true
  | .andImm _ _ _ _ _ _ => true
  | .eorShift _ _ _ _ _ _ _ => true
  | .eorRegShift _ _ _ _ _ _ _ => true
  | .eorImm _ _ _ _ _ _ => true
  | .subShift _ _ _ _ _ _ _ => true
  | .subRegShift _ _ _ _ _ _ _ => true
  | .subImm _ _ _ _ _ _ => true
  | .rsbShift _ _ _ _ _ _ _ => true
  | .rsbRegShift _ _ _ _ _ _ _ => true
  | .rsbImm _ _ _ _ _ _ => true
  | .addShift _ _ _ _ _ _ _ => true
  | .addRegShift _ _ _ _ _ _ _ => true
  | .addImm _ _ _ _ _ _ => true
  | .adcShift _ _ _ _ _ _ _ => true
  | .adcRegShift _ _ _ _ _ _ _ => true
  | .adcImm _ _ _ _ _ _ => true
  | .sbcShift _ _ _ _ _ _ _ => true
  | .sbcRegShift _ _ _ _ _ _ _ => true
  | .sbcImm _ _ _ _ _ _ => true
  | .rscShift _ _ _ _ _ _ _ => true
  | .rscRegShift _ _ _ _ _ _ _ => true
  | .rscImm _ _ _ _ _ _ => true
  | .tstShift _ _ _ _ _ _ => true
  | .tstRegShift _ _ _ _ _ _ => true
  | .tstImm _ _ _ _ _ => true
  | .teqShift _ _ _ _ _ _ => true
  | .teqRegShift _ _ _ _ _ _ => true
  | .teqImm _ _ _ _ _ => true
  | .cmpShift _ _ _ _ _ _ => true
  | .cmpRegShift _ _ _ _ _ _ => true
  | .cmpImm _ _ _ _ _ => true
  | .cmnShift _ _ _ _ _ _ => true
  | .cmnRegShift _ _ _ _ _ _ => true
  | .cmnImm _ _ _ _ _ => true
  | .orrShift _ _ _ _ _ _ _ => true
  | .orrRegShift _ _ _ _ _ _ _ => true
  | .orrImm _ _ _ _ _ _ => true
  | .movShift _ _ _ _ _ _ _ => true
  | .movRegShift _ _ _ _ _ _ _ => true
  | .movImm _ _ _ _ _ _ => true
  | .bicShift _ _ _ _ _ _ _ => true
  | .bicRegShift _ _ _ _ _ _ _ => true
  | .bicImm _ _ _ _ _ _ => true
  | .mvnShift _ _ _ _ _ _ _ => true
  | .mvnRegShift _ _ _ _ _ _ _ => true
  | .mvnImm _ _ _ _ _ _ => true
  | .tLslImm _ _ _ => true
  | .tLsrImm _ _ _ => true
  | .tAsrImm _ _ _ => true
  | .tAddReg _ _ _ => true
  | .tSubReg _ _ _ => true
  | .tAddImm3 _ _ _ => true
  | .tSubImm3 _ _ _ => true
  | .tMovImm _ _ => true
  | .tCmpImm _ _ => true
  | .tAddImm8 _ _ => true
  | .tSubImm8 _ _ => true
  | .tAnd _ _ => true
  | .tEor _ _ => true
  | .tLslReg _ _ => true
  | .tLsrReg _ _ => true
  | .tAsrReg _ _ => true
  | .tAdc _ _ => true
  | .tSbc _ _ => true
  | .tRorReg _ _ => true
  | .tTst _ _ => true
  | .tNeg _ _ => true
  | .tCmpReg _ _ => true
  | .tCmn _ _ => true
  | .tOrr _ _ => true
  | .tMul _ _ => true
  | .tBic _ _ => true
  | .tMvn _ _ => true
  | .tAddHi _ _ => true
  | .tCmpHi _ _ => true
  | .tMovHi _ _ => true
  | .tBx _ _ => true
  | .tBlxReg _ _ => true
  | .tLdrLit _ _ => true
  | .tStrReg _ _ _ => true
  | .tStrhReg _ _ _ => true
  | .tStrbReg _ _ _ => true
  | .tLdrsbReg _ _ _ => true
  | .tLdrReg _ _ _ => true
  | .tLdrhReg _ _ _ => true
  | .tLdrbReg _ _ _ => true
  | .tLdrshReg _ _ _ => true
  | .tStrImm _ _ _ => true
  | .tLdrImm _ _ _ => true
  | .tStrbImm _ _ _ => true
  | .tLdrbImm _ _ _ => true
  | .tStrhImm _ _ _ => true
  | .tLdrhImm _ _ _ => true
  | .tStrSp _ _ => true
  | .tLdrSp _ _ => true
  | .tAddPcImm _ _ => true
  | .tAddSpImm _ _ => true
  | .tAddSp _ => true
  | .tSubSp _ => true
  | .tPush _ _ => true
  | .tPop _ _ => true
  | .tBkpt _ => true
  | .unallocThumbMisc bits => !definedThumbMisc bits
  | .tStmia _ _ => true
  | .tLdmia _ _ => true
  | .undefinedThumb _ => true
  | .tSwi _ => true
  | .tBCond c _ => c != .al
  | .tB _ => true
  | .unallocBlxSuffix _ => true
  | .tBlxSuffix _ => true
  | .tBlPrefix _ => true
  | .tBlSuffix _ => true

end Sys2Proof
end

