-- ==== Sys2Proof/Decode.lean ====
section
/-! DEFINITION. From bits to instructions and back (spec/30_encoding.md). An ARM word is first cut into the fields all
ARM formats share (R101), a Thumb halfword into its single bits and its two low register fields (R115); the decoder is
the decode map of R111, R112 and R116 on those fields, and the encoder fills them in from the formats of R102 to R111
and R115. -/

namespace Sys2Proof

/-! ## The fields of a word -/

/-- An ARM instruction word, bits [31:0] from left to right. -/
structure ArmWord where
  cond : BitVec 4
  b27 : Bool
  b26 : Bool
  b25 : Bool
  b24 : Bool
  b23 : Bool
  b22 : Bool
  b21 : Bool
  b20 : Bool
  rn : BitVec 4
  rd : BitVec 4
  rs : BitVec 4
  b7 : Bool
  b6 : Bool
  b5 : Bool
  b4 : Bool
  rm : BitVec 4
deriving DecidableEq, Repr

/-- A Thumb instruction halfword, bits [15:0] from left to right. -/
structure ThumbWord where
  b15 : Bool
  b14 : Bool
  b13 : Bool
  b12 : Bool
  b11 : Bool
  b10 : Bool
  b9 : Bool
  b8 : Bool
  b7 : Bool
  b6 : Bool
  m : BitVec 3
  d : BitVec 3
deriving DecidableEq, Repr

/-- Four bits as a number, most significant first. -/
def nib (a b c d : Bool) : BitVec 4 :=
  BitVec.ofBool a ++ BitVec.ofBool b ++ BitVec.ofBool c ++ BitVec.ofBool d

/-- The fields of an ARM word. -/
def ArmWord.ofBits (w : BitVec 32) : ArmWord :=
  { cond := w.extractLsb' 28 4
    b27 := w.getLsbD 27, b26 := w.getLsbD 26, b25 := w.getLsbD 25, b24 := w.getLsbD 24
    b23 := w.getLsbD 23, b22 := w.getLsbD 22, b21 := w.getLsbD 21, b20 := w.getLsbD 20
    rn := w.extractLsb' 16 4, rd := w.extractLsb' 12 4, rs := w.extractLsb' 8 4
    b7 := w.getLsbD 7, b6 := w.getLsbD 6, b5 := w.getLsbD 5, b4 := w.getLsbD 4
    rm := w.extractLsb' 0 4 }

/-- The ARM word that has these fields. -/
def ArmWord.toBits (f : ArmWord) : BitVec 32 :=
  f.cond ++ nib f.b27 f.b26 f.b25 f.b24 ++ nib f.b23 f.b22 f.b21 f.b20 ++ f.rn ++ f.rd ++ f.rs
    ++ nib f.b7 f.b6 f.b5 f.b4 ++ f.rm

/-- The fields of a Thumb halfword. -/
def ThumbWord.ofBits (w : BitVec 16) : ThumbWord :=
  { b15 := w.getLsbD 15, b14 := w.getLsbD 14, b13 := w.getLsbD 13, b12 := w.getLsbD 12
    b11 := w.getLsbD 11, b10 := w.getLsbD 10, b9 := w.getLsbD 9, b8 := w.getLsbD 8
    b7 := w.getLsbD 7, b6 := w.getLsbD 6, m := w.extractLsb' 3 3, d := w.extractLsb' 0 3 }

/-- The Thumb halfword that has these fields. -/
def ThumbWord.toBits (f : ThumbWord) : BitVec 16 :=
  nib f.b15 f.b14 f.b13 f.b12 ++ nib f.b11 f.b10 f.b9 f.b8 ++ BitVec.ofBool f.b7 ++ BitVec.ofBool f.b6
    ++ f.m ++ f.d

/-- Bits [7:0]. -/
def ArmWord.imm8 (f : ArmWord) : BitVec 8 := nib f.b7 f.b6 f.b5 f.b4 ++ f.rm
/-- Bits [11:0]. -/
def ArmWord.imm12 (f : ArmWord) : BitVec 12 := f.rs ++ f.imm8
/-- Bits [15:0]. -/
def ArmWord.imm16 (f : ArmWord) : BitVec 16 := f.rd ++ f.imm12
/-- Bits [19:0]. -/
def ArmWord.imm20 (f : ArmWord) : BitVec 20 := f.rn ++ f.imm16
/-- Bits [23:0]. -/
def ArmWord.imm24 (f : ArmWord) : BitVec 24 := nib f.b23 f.b22 f.b21 f.b20 ++ f.imm20
/-- Bits [27:0]. -/
def ArmWord.imm28 (f : ArmWord) : BitVec 28 := nib f.b27 f.b26 f.b25 f.b24 ++ f.imm24
/-- Bits [11:7], a shift amount. -/
def ArmWord.shiftImm (f : ArmWord) : BitVec 5 := f.rs ++ BitVec.ofBool f.b7
/-- Bits [7:5]. -/
def ArmWord.bits7to5 (f : ArmWord) : BitVec 3 := BitVec.ofBool f.b7 ++ BitVec.ofBool f.b6 ++ BitVec.ofBool f.b5
/-- Bits [23:21]. -/
def ArmWord.bits23to21 (f : ArmWord) : BitVec 3 :=
  BitVec.ofBool f.b23 ++ BitVec.ofBool f.b22 ++ BitVec.ofBool f.b21

/-- Bits [2:0] of the halfword with the bits above them: an 8-bit field at [7:0]. -/
def ThumbWord.imm8 (f : ThumbWord) : BitVec 8 := BitVec.ofBool f.b7 ++ BitVec.ofBool f.b6 ++ f.m ++ f.d
/-- Bits [10:0]. -/
def ThumbWord.imm11 (f : ThumbWord) : BitVec 11 :=
  BitVec.ofBool f.b10 ++ BitVec.ofBool f.b9 ++ BitVec.ofBool f.b8 ++ f.imm8
/-- Bits [11:0]. -/
def ThumbWord.imm12 (f : ThumbWord) : BitVec 12 := BitVec.ofBool f.b11 ++ f.imm11
/-- Bits [10:6]. -/
def ThumbWord.imm5 (f : ThumbWord) : BitVec 5 :=
  BitVec.ofBool f.b10 ++ BitVec.ofBool f.b9 ++ BitVec.ofBool f.b8 ++ BitVec.ofBool f.b7 ++ BitVec.ofBool f.b6
/-- Bits [8:6]. -/
def ThumbWord.r8 (f : ThumbWord) : BitVec 3 := BitVec.ofBool f.b8 ++ BitVec.ofBool f.b7 ++ BitVec.ofBool f.b6
/-- Bits [10:8]. -/
def ThumbWord.r10 (f : ThumbWord) : BitVec 3 := BitVec.ofBool f.b10 ++ BitVec.ofBool f.b9 ++ BitVec.ofBool f.b8

/-! ## The small field types -/

/-- The condition of a 4-bit field, none for 1111 (R100). -/
def Cond.ofBits (b : BitVec 4) : Option Cond :=
  match b.getLsbD 3, b.getLsbD 2, b.getLsbD 1, b.getLsbD 0 with
  | false, false, false, false => some .eq
  | false, false, false, true => some .ne
  | false, false, true, false => some .cs
  | false, false, true, true => some .cc
  | false, true, false, false => some .mi
  | false, true, false, true => some .pl
  | false, true, true, false => some .vs
  | false, true, true, true => some .vc
  | true, false, false, false => some .hi
  | true, false, false, true => some .ls
  | true, false, true, false => some .ge
  | true, false, true, true => some .lt
  | true, true, false, false => some .gt
  | true, true, false, true => some .le
  | true, true, true, false => some .al
  | true, true, true, true => none

/-- The 4-bit field of a condition (R100). -/
def Cond.bits : Cond → BitVec 4
  | .eq => 0 | .ne => 1 | .cs => 2 | .cc => 3 | .mi => 4 | .pl => 5 | .vs => 6 | .vc => 7
  | .hi => 8 | .ls => 9 | .ge => 10 | .lt => 11 | .gt => 12 | .le => 13 | .al => 14

/-- The shift type of bits [6:5] (R102). -/
def ShiftKind.ofBits (b6 b5 : Bool) : ShiftKind :=
  match b6, b5 with
  | false, false => .lsl
  | false, true => .lsr
  | true, false => .asr
  | true, true => .ror

/-- Bit 6 of a shift type. -/
def ShiftKind.hi : ShiftKind → Bool
  | .lsl => false | .lsr => false | .asr => true | .ror => true
/-- Bit 5 of a shift type. -/
def ShiftKind.lo : ShiftKind → Bool
  | .lsl => false | .lsr => true | .asr => false | .ror => true

/-- The P bit of a form. -/
def Indexing.p : Indexing → Bool
  | .offset => true | .preIndexed => true | .postIndexed => false
/-- The W bit of a form. -/
def Indexing.w : Indexing → Bool
  | .offset => false | .preIndexed => true | .postIndexed => false

/-- The P bit of a coprocessor load or store form. -/
def CpIndexing.p : CpIndexing → Bool
  | .offset _ => true | .preIndexed _ => true | .postIndexed _ => false | .unindexed => false
/-- The U bit. -/
def CpIndexing.u : CpIndexing → Bool
  | .offset u => u | .preIndexed u => u | .postIndexed u => u | .unindexed => true
/-- The W bit. -/
def CpIndexing.w : CpIndexing → Bool
  | .offset _ => false | .preIndexed _ => true | .postIndexed _ => true | .unindexed => false

/-! ## Decoding ARM words -/

/-- LDC or STC and its addressing form by P, U, W: none for the patterns of MCRR, MRRC and the extension space. -/
def CpIndexing.ofBits (p u w : Bool) : Option CpIndexing :=
  match p, w, u with
  | true, false, u => some (.offset u)
  | true, true, u => some (.preIndexed u)
  | false, true, u => some (.postIndexed u)
  | false, false, true => some .unindexed
  | false, false, false => none

/-- cond = 1111 (R111, R113). -/
def decodeUncond (f : ArmWord) : Instr :=
  match f.b27, f.b26, f.b25 with
  | false, true, false =>
    if f.b24 && f.b22 && !f.b21 && f.b20 && f.rd == 15 then .pldImm f.b23 f.rn f.imm12
    else .unallocUncond f.imm28
  | false, true, true =>
    if f.b24 && f.b22 && !f.b21 && f.b20 && f.rd == 15 && !f.b4 then
      .pldReg f.b23 f.rn f.shiftImm (.ofBits f.b6 f.b5) f.rm
    else .unallocUncond f.imm28
  | true, false, true => .blxImm f.b24 f.imm24
  | true, true, false =>
    match CpIndexing.ofBits f.b24 f.b23 f.b21 with
    | some a =>
      if f.b20 then .ldc2 a f.b22 f.rn f.rd f.rs f.imm8 else .stc2 a f.b22 f.rn f.rd f.rs f.imm8
    | none =>
      if f.b22 then .unallocUncondMcrr (BitVec.ofBool f.b20 ++ f.imm20)
      else .unallocUncondLsm (BitVec.ofBool f.b20 ++ f.imm20)
  | true, true, true =>
    if f.b24 then .unallocUncond f.imm28
    else if !f.b4 then
      .cdp2 (nib f.b23 f.b22 f.b21 f.b20) f.rn f.rd f.rs f.bits7to5 f.rm
    else if f.b20 then .mrc2 f.bits23to21 f.rn f.rd f.rs f.bits7to5 f.rm
    else .mcr2 f.bits23to21 f.rn f.rd f.rs f.bits7to5 f.rm
  | _, _, _ => .unallocUncond f.imm28

/-- MCR and MRC of p15 (R123). -/
def decodeP15 (c : Cond) (l : Bool) (op1 : BitVec 3) (crn rd : Reg) (op2 : BitVec 3) (crm : Reg) : Instr :=
  if l && op1 == 0 && crn == 0 && crm == 0 then
    if op2 == 2 then .mrcTcmSize c rd else .mrcIdCode c rd op2
  else if op1 == 0 && crn == 1 && crm == 0 && op2 == 0 then
    if l then .mrcControl c rd else .mcrControl c rd
  else if !l && op1 == 0 && crn == 7 && crm == 0 && op2 == 4 then .mcrWaitForInterrupt c rd
  else if !l && op1 == 0 && crn == 15 && crm == 8 && op2 == 2 then .mcrWaitForInterruptLegacy c rd
  else if !l && op1 == 0 && crn == 7 && crm == 10 && op2 == 4 then .mcrDrainWriteBuffer c rd
  else if op1 == 0 && crn == 13 && op2 == 0 then
    if l then .mrcProcId c rd crm else .mcrProcId c rd crm
  else if op1 == 1 && crn == 15 && crm == 1 && op2 == 0 then
    if l then .mrcConfigControl c rd else .mcrConfigControl c rd
  else if op1 == 1 && crn == 15 && crm == 0 && op2 == 1 then
    if l then .mrcBistControl c rd else .mcrBistControl c rd
  else if op1 == 1 && crn == 15 && crm == 0 && op2 == 2 then
    if l then .mrcIBistAddress c rd else .mcrIBistAddress c rd
  else if op1 == 1 && crn == 15 && crm == 0 && op2 == 3 then
    if l then .mrcIBistGeneral c rd else .mcrIBistGeneral c rd
  else if op1 == 1 && crn == 15 && crm == 0 && op2 == 6 then
    if l then .mrcDBistAddress c rd else .mcrDBistAddress c rd
  else if op1 == 1 && crn == 15 && crm == 0 && op2 == 7 then
    if l then .mrcDBistGeneral c rd else .mcrDBistGeneral c rd
  else .p15Other c l op1 crn rd op2 crm

/-- MCR and MRC of p14 (R162). -/
def decodeP14 (c : Cond) (l : Bool) (op1 : BitVec 3) (crn rd : Reg) (op2 : BitVec 3) (crm : Reg) : Instr :=
  if op1 == 0 && op2 == 0 && crm == 0 then
    if l && crn == 0 then .mrcCommsStatus c rd
    else if crn == 1 then if l then .mrcCommsData c rd else .mcrCommsData c rd
    else if crn == 2 then if l then .mrcMonitorStatus c rd else .mcrMonitorStatus c rd
    else .p14Other c l op1 crn rd op2 crm
  else .p14Other c l op1 crn rd op2 crm

/-- [27:25] = 110: coprocessor loads, stores and two-register transfers (R110, R113). -/
def decodeCpTransfer (c : Cond) (f : ArmWord) : Instr :=
  if f.rs == 15 then .p15Transfer c (nib f.b24 f.b23 f.b22 f.b21 ++ BitVec.ofBool f.b20 ++ f.rn ++ f.rd) f.imm8
  else if f.rs == 14 then
    .p14Transfer c (nib f.b24 f.b23 f.b22 f.b21 ++ BitVec.ofBool f.b20 ++ f.rn ++ f.rd) f.imm8
  else
    match CpIndexing.ofBits f.b24 f.b23 f.b21 with
    | some a =>
      if f.b20 then .ldc c a f.b22 f.rn f.rd f.rs f.imm8 else .stc c a f.b22 f.rn f.rd f.rs f.imm8
    | none =>
      if f.b22 then
        if f.b20 then .mrrc c f.rn f.rd f.rs (nib f.b7 f.b6 f.b5 f.b4) f.rm
        else .mcrr c f.rn f.rd f.rs (nib f.b7 f.b6 f.b5 f.b4) f.rm
      else .unallocCp c f.b20 f.rn f.rd f.rs f.imm8

/-- [27:24] = 1110: coprocessor operations and register transfers (R110). -/
def decodeCpRegister (c : Cond) (f : ArmWord) : Instr :=
  if !f.b4 then
    if f.rs == 15 then .p15Cdp c (nib f.b23 f.b22 f.b21 f.b20) f.rn f.rd f.bits7to5 f.rm
    else if f.rs == 14 then .p14Cdp c (nib f.b23 f.b22 f.b21 f.b20) f.rn f.rd f.bits7to5 f.rm
    else .cdp c (nib f.b23 f.b22 f.b21 f.b20) f.rn f.rd f.rs f.bits7to5 f.rm
  else if f.rs == 15 then decodeP15 c f.b20 f.bits23to21 f.rn f.rd f.bits7to5 f.rm
  else if f.rs == 14 then decodeP14 c f.b20 f.bits23to21 f.rn f.rd f.bits7to5 f.rm
  else if f.b20 then .mrc c f.bits23to21 f.rn f.rd f.rs f.bits7to5 f.rm
  else .mcr c f.bits23to21 f.rn f.rd f.rs f.bits7to5 f.rm

/-- The multiplies, SWP and the space around them: [27:25] = 000, [7:4] = 1001 (R103, R107, R112). -/
def decodeMultiply (c : Cond) (f : ArmWord) : Instr :=
  match f.b24, f.b23, f.b22, f.b21 with
  | false, false, false, false => .mul c f.b20 f.rn f.rd f.rs f.rm
  | false, false, false, true => .mla c f.b20 f.rn f.rd f.rs f.rm
  | false, false, true, b21 => .unallocArith c b21 f.b20 f.rn f.rd f.rs f.rm
  | false, true, false, false => .umull c f.b20 f.rn f.rd f.rs f.rm
  | false, true, false, true => .umlal c f.b20 f.rn f.rd f.rs f.rm
  | false, true, true, false => .smull c f.b20 f.rn f.rd f.rs f.rm
  | false, true, true, true => .smlal c f.b20 f.rn f.rd f.rs f.rm
  | true, b23, b22, b21 =>
    if !b23 && !b21 && !f.b20 then
      if b22 then .swpb c f.rn f.rd f.rs f.rm else .swp c f.rn f.rd f.rs f.rm
    else .unallocExt c b23 b22 b21 f.b20 f.rn f.rd f.rs f.rm

/-- Halfword, signed byte and doubleword loads and stores (R107). -/
def decodeHalf (c : Cond) (f : ArmWord) : Instr :=
  match f.b20, f.b6, f.b5, f.b22 with
  | false, false, _, true => .strhImm c f.b24 f.b23 f.b21 f.rn f.rd (f.rs ++ f.rm)
  | false, false, _, false => .strhReg c f.b24 f.b23 f.b21 f.rn f.rd f.rs f.rm
  | false, true, false, true => .ldrdImm c f.b24 f.b23 f.b21 f.rn f.rd (f.rs ++ f.rm)
  | false, true, false, false => .ldrdReg c f.b24 f.b23 f.b21 f.rn f.rd f.rs f.rm
  | false, true, true, true => .strdImm c f.b24 f.b23 f.b21 f.rn f.rd (f.rs ++ f.rm)
  | false, true, true, false => .strdReg c f.b24 f.b23 f.b21 f.rn f.rd f.rs f.rm
  | true, false, _, true => .ldrhImm c f.b24 f.b23 f.b21 f.rn f.rd (f.rs ++ f.rm)
  | true, false, _, false => .ldrhReg c f.b24 f.b23 f.b21 f.rn f.rd f.rs f.rm
  | true, true, false, true => .ldrsbImm c f.b24 f.b23 f.b21 f.rn f.rd (f.rs ++ f.rm)
  | true, true, false, false => .ldrsbReg c f.b24 f.b23 f.b21 f.rn f.rd f.rs f.rm
  | true, true, true, true => .ldrshImm c f.b24 f.b23 f.b21 f.rn f.rd (f.rs ++ f.rm)
  | true, true, true, false => .ldrshReg c f.b24 f.b23 f.b21 f.rn f.rd f.rs f.rm

/-- The miscellaneous and DSP space: [27:23] = 00010, [20] = 0, bits 7 and 4 not both set (R104, R105, R112). -/
def decodeMisc (c : Cond) (f : ArmWord) : Instr :=
  match f.b7, f.b6, f.b5, f.b4, f.b22, f.b21 with
  | false, false, false, false, r, false => .mrs c r f.rn f.rd f.rs f.rm
  | false, false, false, false, r, true => .msrReg c r f.rn f.rd f.rs f.rm
  | false, false, false, true, false, true => .bx c f.rn f.rd f.rs f.rm
  | false, false, false, true, true, true => .clz c f.rn f.rd f.rs f.rm
  | false, false, true, true, false, true => .blxReg c f.rn f.rd f.rs f.rm
  | false, true, false, true, false, false => .qadd c f.rn f.rd f.rs f.rm
  | false, true, false, true, false, true => .qsub c f.rn f.rd f.rs f.rm
  | false, true, false, true, true, false => .qdadd c f.rn f.rd f.rs f.rm
  | false, true, false, true, true, true => .qdsub c f.rn f.rd f.rs f.rm
  | false, true, true, true, false, true => .bkpt c (f.rn ++ f.rd ++ f.rs) f.rm
  | true, y, x, false, false, false => .smlaxy c x y f.rn f.rd f.rs f.rm
  | true, y, false, false, false, true => .smlawy c y f.rn f.rd f.rs f.rm
  | true, y, true, false, false, true => .smulwy c y f.rn f.rd f.rs f.rm
  | true, y, x, false, true, false => .smlalxy c x y f.rn f.rd f.rs f.rm
  | true, y, x, false, true, true => .smulxy c x y f.rn f.rd f.rs f.rm
  | _, _, _, _, _, _ => .unallocMisc c f.b22 f.b21 f.rn f.rd f.rs f.b7 f.b6 f.b5 f.b4 f.rm

/-- Data processing, immediate shift (R102). -/
def decodeDpShift (c : Cond) (f : ArmWord) : Instr :=
  match f.b24, f.b23, f.b22, f.b21 with
  | false, false, false, false => .andShift c f.b20 f.rn f.rd f.shiftImm (.ofBits f.b6 f.b5) f.rm
  | false, false, false, true => .eorShift c f.b20 f.rn f.rd f.shiftImm (.ofBits f.b6 f.b5) f.rm
  | false, false, true, false => .subShift c f.b20 f.rn f.rd f.shiftImm (.ofBits f.b6 f.b5) f.rm
  | false, false, true, true => .rsbShift c f.b20 f.rn f.rd f.shiftImm (.ofBits f.b6 f.b5) f.rm
  | false, true, false, false => .addShift c f.b20 f.rn f.rd f.shiftImm (.ofBits f.b6 f.b5) f.rm
  | false, true, false, true => .adcShift c f.b20 f.rn f.rd f.shiftImm (.ofBits f.b6 f.b5) f.rm
  | false, true, true, false => .sbcShift c f.b20 f.rn f.rd f.shiftImm (.ofBits f.b6 f.b5) f.rm
  | false, true, true, true => .rscShift c f.b20 f.rn f.rd f.shiftImm (.ofBits f.b6 f.b5) f.rm
  | true, false, false, false => .tstShift c f.rn f.rd f.shiftImm (.ofBits f.b6 f.b5) f.rm
  | true, false, false, true => .teqShift c f.rn f.rd f.shiftImm (.ofBits f.b6 f.b5) f.rm
  | true, false, true, false => .cmpShift c f.rn f.rd f.shiftImm (.ofBits f.b6 f.b5) f.rm
  | true, false, true, true => .cmnShift c f.rn f.rd f.shiftImm (.ofBits f.b6 f.b5) f.rm
  | true, true, false, false => .orrShift c f.b20 f.rn f.rd f.shiftImm (.ofBits f.b6 f.b5) f.rm
  | true, true, false, true => .movShift c f.b20 f.rn f.rd f.shiftImm (.ofBits f.b6 f.b5) f.rm
  | true, true, true, false => .bicShift c f.b20 f.rn f.rd f.shiftImm (.ofBits f.b6 f.b5) f.rm
  | true, true, true, true => .mvnShift c f.b20 f.rn f.rd f.shiftImm (.ofBits f.b6 f.b5) f.rm

/-- Data processing, register shift (R102). -/
def decodeDpRegShift (c : Cond) (f : ArmWord) : Instr :=
  match f.b24, f.b23, f.b22, f.b21 with
  | false, false, false, false => .andRegShift c f.b20 f.rn f.rd f.rs (.ofBits f.b6 f.b5) f.rm
  | false, false, false, true => .eorRegShift c f.b20 f.rn f.rd f.rs (.ofBits f.b6 f.b5) f.rm
  | false, false, true, false => .subRegShift c f.b20 f.rn f.rd f.rs (.ofBits f.b6 f.b5) f.rm
  | false, false, true, true => .rsbRegShift c f.b20 f.rn f.rd f.rs (.ofBits f.b6 f.b5) f.rm
  | false, true, false, false => .addRegShift c f.b20 f.rn f.rd f.rs (.ofBits f.b6 f.b5) f.rm
  | false, true, false, true => .adcRegShift c f.b20 f.rn f.rd f.rs (.ofBits f.b6 f.b5) f.rm
  | false, true, true, false => .sbcRegShift c f.b20 f.rn f.rd f.rs (.ofBits f.b6 f.b5) f.rm
  | false, true, true, true => .rscRegShift c f.b20 f.rn f.rd f.rs (.ofBits f.b6 f.b5) f.rm
  | true, false, false, false => .tstRegShift c f.rn f.rd f.rs (.ofBits f.b6 f.b5) f.rm
  | true, false, false, true => .teqRegShift c f.rn f.rd f.rs (.ofBits f.b6 f.b5) f.rm
  | true, false, true, false => .cmpRegShift c f.rn f.rd f.rs (.ofBits f.b6 f.b5) f.rm
  | true, false, true, true => .cmnRegShift c f.rn f.rd f.rs (.ofBits f.b6 f.b5) f.rm
  | true, true, false, false => .orrRegShift c f.b20 f.rn f.rd f.rs (.ofBits f.b6 f.b5) f.rm
  | true, true, false, true => .movRegShift c f.b20 f.rn f.rd f.rs (.ofBits f.b6 f.b5) f.rm
  | true, true, true, false => .bicRegShift c f.b20 f.rn f.rd f.rs (.ofBits f.b6 f.b5) f.rm
  | true, true, true, true => .mvnRegShift c f.b20 f.rn f.rd f.rs (.ofBits f.b6 f.b5) f.rm

/-- Data processing, immediate (R102). -/
def decodeDpImm (c : Cond) (f : ArmWord) : Instr :=
  match f.b24, f.b23, f.b22, f.b21 with
  | false, false, false, false => .andImm c f.b20 f.rn f.rd f.rs f.imm8
  | false, false, false, true => .eorImm c f.b20 f.rn f.rd f.rs f.imm8
  | false, false, true, false => .subImm c f.b20 f.rn f.rd f.rs f.imm8
  | false, false, true, true => .rsbImm c f.b20 f.rn f.rd f.rs f.imm8
  | false, true, false, false => .addImm c f.b20 f.rn f.rd f.rs f.imm8
  | false, true, false, true => .adcImm c f.b20 f.rn f.rd f.rs f.imm8
  | false, true, true, false => .sbcImm c f.b20 f.rn f.rd f.rs f.imm8
  | false, true, true, true => .rscImm c f.b20 f.rn f.rd f.rs f.imm8
  | true, false, false, false => .tstImm c f.rn f.rd f.rs f.imm8
  | true, false, false, true => .teqImm c f.rn f.rd f.rs f.imm8
  | true, false, true, false => .cmpImm c f.rn f.rd f.rs f.imm8
  | true, false, true, true => .cmnImm c f.rn f.rd f.rs f.imm8
  | true, true, false, false => .orrImm c f.b20 f.rn f.rd f.rs f.imm8
  | true, true, false, true => .movImm c f.b20 f.rn f.rd f.rs f.imm8
  | true, true, true, false => .bicImm c f.b20 f.rn f.rd f.rs f.imm8
  | true, true, true, true => .mvnImm c f.b20 f.rn f.rd f.rs f.imm8

/-- Word and byte loads and stores, immediate offset (R106). -/
def decodeLsImm (c : Cond) (f : ArmWord) : Instr :=
  match f.b24, f.b21, f.b22, f.b20 with
  | false, true, false, true => .ldrtImm c f.b23 f.rn f.rd f.imm12
  | true, false, false, true => .ldrImm c .offset f.b23 f.rn f.rd f.imm12
  | true, true, false, true => .ldrImm c .preIndexed f.b23 f.rn f.rd f.imm12
  | false, false, false, true => .ldrImm c .postIndexed f.b23 f.rn f.rd f.imm12
  | false, true, true, true => .ldrbtImm c f.b23 f.rn f.rd f.imm12
  | true, false, true, true => .ldrbImm c .offset f.b23 f.rn f.rd f.imm12
  | true, true, true, true => .ldrbImm c .preIndexed f.b23 f.rn f.rd f.imm12
  | false, false, true, true => .ldrbImm c .postIndexed f.b23 f.rn f.rd f.imm12
  | false, true, false, false => .strtImm c f.b23 f.rn f.rd f.imm12
  | true, false, false, false => .strImm c .offset f.b23 f.rn f.rd f.imm12
  | true, true, false, false => .strImm c .preIndexed f.b23 f.rn f.rd f.imm12
  | false, false, false, false => .strImm c .postIndexed f.b23 f.rn f.rd f.imm12
  | false, true, true, false => .strbtImm c f.b23 f.rn f.rd f.imm12
  | true, false, true, false => .strbImm c .offset f.b23 f.rn f.rd f.imm12
  | true, true, true, false => .strbImm c .preIndexed f.b23 f.rn f.rd f.imm12
  | false, false, true, false => .strbImm c .postIndexed f.b23 f.rn f.rd f.imm12

/-- Word and byte loads and stores, register offset (R106). -/
def decodeLsReg (c : Cond) (f : ArmWord) : Instr :=
  match f.b24, f.b21, f.b22, f.b20 with
  | false, true, false, true => .ldrtReg c f.b23 f.rn f.rd f.shiftImm (.ofBits f.b6 f.b5) f.rm
  | true, false, false, true => .ldrReg c .offset f.b23 f.rn f.rd f.shiftImm (.ofBits f.b6 f.b5) f.rm
  | true, true, false, true => .ldrReg c .preIndexed f.b23 f.rn f.rd f.shiftImm (.ofBits f.b6 f.b5) f.rm
  | false, false, false, true => .ldrReg c .postIndexed f.b23 f.rn f.rd f.shiftImm (.ofBits f.b6 f.b5) f.rm
  | false, true, true, true => .ldrbtReg c f.b23 f.rn f.rd f.shiftImm (.ofBits f.b6 f.b5) f.rm
  | true, false, true, true => .ldrbReg c .offset f.b23 f.rn f.rd f.shiftImm (.ofBits f.b6 f.b5) f.rm
  | true, true, true, true => .ldrbReg c .preIndexed f.b23 f.rn f.rd f.shiftImm (.ofBits f.b6 f.b5) f.rm
  | false, false, true, true => .ldrbReg c .postIndexed f.b23 f.rn f.rd f.shiftImm (.ofBits f.b6 f.b5) f.rm
  | false, true, false, false => .strtReg c f.b23 f.rn f.rd f.shiftImm (.ofBits f.b6 f.b5) f.rm
  | true, false, false, false => .strReg c .offset f.b23 f.rn f.rd f.shiftImm (.ofBits f.b6 f.b5) f.rm
  | true, true, false, false => .strReg c .preIndexed f.b23 f.rn f.rd f.shiftImm (.ofBits f.b6 f.b5) f.rm
  | false, false, false, false => .strReg c .postIndexed f.b23 f.rn f.rd f.shiftImm (.ofBits f.b6 f.b5) f.rm
  | false, true, true, false => .strbtReg c f.b23 f.rn f.rd f.shiftImm (.ofBits f.b6 f.b5) f.rm
  | true, false, true, false => .strbReg c .offset f.b23 f.rn f.rd f.shiftImm (.ofBits f.b6 f.b5) f.rm
  | true, true, true, false => .strbReg c .preIndexed f.b23 f.rn f.rd f.shiftImm (.ofBits f.b6 f.b5) f.rm
  | false, false, true, false => .strbReg c .postIndexed f.b23 f.rn f.rd f.shiftImm (.ofBits f.b6 f.b5) f.rm

/-- Load and store multiple (R108). -/
def decodeLsm (c : Cond) (f : ArmWord) : Instr :=
  match f.b22, f.b20, f.rd.getLsbD 3 with
  | true, true, true => .ldmReturn c f.b24 f.b23 f.b21 f.rn (f.rd.extractLsb' 0 3 ++ f.imm12)
  | true, true, false => .ldmUser c f.b24 f.b23 f.b21 f.rn (f.rd.extractLsb' 0 3 ++ f.imm12)
  | false, true, _ => .ldm c f.b24 f.b23 f.b21 f.rn f.imm16
  | true, false, _ => .stmUser c f.b24 f.b23 f.b21 f.rn f.imm16
  | false, false, _ => .stm c f.b24 f.b23 f.b21 f.rn f.imm16

/-- cond other than 1111: the decode map of R112. -/
def decodeCond (c : Cond) (f : ArmWord) : Instr :=
  match f.b27, f.b26, f.b25 with
  | false, false, false =>
    if f.b7 && f.b4 then
      if !f.b6 && !f.b5 then decodeMultiply c f else decodeHalf c f
    else if f.b24 && !f.b23 && !f.b20 then decodeMisc c f
    else if f.b4 then decodeDpRegShift c f
    else decodeDpShift c f
  | false, false, true =>
    if f.b24 && !f.b23 && !f.b20 then
      if f.b21 then .msrImm c f.b22 f.rn f.rd f.rs f.imm8
      else .undefinedArm2 c f.b22 f.rn f.rd f.rs f.imm8
    else decodeDpImm c f
  | false, true, false => decodeLsImm c f
  | false, true, true =>
    if f.b4 then
      .undefinedArm c (nib f.b24 f.b23 f.b22 f.b21 ++ BitVec.ofBool f.b20 ++ f.rn ++ f.rd ++ f.rs
        ++ BitVec.ofBool f.b7 ++ BitVec.ofBool f.b6 ++ BitVec.ofBool f.b5) f.rm
    else decodeLsReg c f
  | true, false, false => decodeLsm c f
  | true, false, true => if f.b24 then .bl c f.imm24 else .b c f.imm24
  | true, true, false => decodeCpTransfer c f
  | true, true, true => if f.b24 then .swi c f.imm24 else decodeCpRegister c f

/-- The instruction of an ARM word given by its fields. -/
def decodeArmFields (f : ArmWord) : Instr :=
  match Cond.ofBits f.cond with
  | some c => decodeCond c f
  | none => decodeUncond f

/-! ## Decoding Thumb halfwords -/

/-- Data processing on two low registers (R115, format T4). -/
def decodeThumbAlu (f : ThumbWord) : Instr :=
  match f.b9, f.b8, f.b7, f.b6 with
  | false, false, false, false => .tAnd f.m f.d
  | false, false, false, true => .tEor f.m f.d
  | false, false, true, false => .tLslReg f.m f.d
  | false, false, true, true => .tLsrReg f.m f.d
  | false, true, false, false => .tAsrReg f.m f.d
  | false, true, false, true => .tAdc f.m f.d
  | false, true, true, false => .tSbc f.m f.d
  | false, true, true, true => .tRorReg f.m f.d
  | true, false, false, false => .tTst f.m f.d
  | true, false, false, true => .tNeg f.m f.d
  | true, false, true, false => .tCmpReg f.m f.d
  | true, false, true, true => .tCmn f.m f.d
  | true, true, false, false => .tOrr f.m f.d
  | true, true, false, true => .tMul f.m f.d
  | true, true, true, false => .tBic f.m f.d
  | true, true, true, true => .tMvn f.m f.d

/-- 1011 xxxx xxxx xxxx (R116). -/
def decodeThumbMisc (f : ThumbWord) : Instr :=
  match f.b11, f.b10, f.b9, f.b8 with
  | false, false, false, false =>
    if f.b7 then .tSubSp (BitVec.ofBool f.b6 ++ f.m ++ f.d) else .tAddSp (BitVec.ofBool f.b6 ++ f.m ++ f.d)
  | false, true, false, r => .tPush r f.imm8
  | true, true, false, r => .tPop r f.imm8
  | true, true, true, false => .tBkpt f.imm8
  | _, _, _, _ => .unallocThumbMisc f.imm12

/-- The instruction of a Thumb halfword given by its fields: the decode map of R116. -/
def decodeThumbFields (f : ThumbWord) : Instr :=
  match f.b15, f.b14, f.b13, f.b12, f.b11 with
  | false, false, false, false, false => .tLslImm f.imm5 f.m f.d
  | false, false, false, false, true => .tLsrImm f.imm5 f.m f.d
  | false, false, false, true, false => .tAsrImm f.imm5 f.m f.d
  | false, false, false, true, true =>
    match f.b10, f.b9 with
    | false, false => .tAddReg f.r8 f.m f.d
    | false, true => .tSubReg f.r8 f.m f.d
    | true, false => .tAddImm3 f.r8 f.m f.d
    | true, true => .tSubImm3 f.r8 f.m f.d
  | false, false, true, false, false => .tMovImm f.r10 f.imm8
  | false, false, true, false, true => .tCmpImm f.r10 f.imm8
  | false, false, true, true, false => .tAddImm8 f.r10 f.imm8
  | false, false, true, true, true => .tSubImm8 f.r10 f.imm8
  | false, true, false, false, false =>
    if !f.b10 then decodeThumbAlu f
    else
      match f.b9, f.b8 with
      | false, false => .tAddHi (BitVec.ofBool f.b6 ++ f.m) (BitVec.ofBool f.b7 ++ f.d)
      | false, true => .tCmpHi (BitVec.ofBool f.b6 ++ f.m) (BitVec.ofBool f.b7 ++ f.d)
      | true, false => .tMovHi (BitVec.ofBool f.b6 ++ f.m) (BitVec.ofBool f.b7 ++ f.d)
      | true, true =>
        if f.b7 then .tBlxReg (BitVec.ofBool f.b6 ++ f.m) f.d else .tBx (BitVec.ofBool f.b6 ++ f.m) f.d
  | false, true, false, false, true => .tLdrLit f.r10 f.imm8
  | false, true, false, true, b11 =>
    match b11, f.b10, f.b9 with
    | false, false, false => .tStrReg f.r8 f.m f.d
    | false, false, true => .tStrhReg f.r8 f.m f.d
    | false, true, false => .tStrbReg f.r8 f.m f.d
    | false, true, true => .tLdrsbReg f.r8 f.m f.d
    | true, false, false => .tLdrReg f.r8 f.m f.d
    | true, false, true => .tLdrhReg f.r8 f.m f.d
    | true, true, false => .tLdrbReg f.r8 f.m f.d
    | true, true, true => .tLdrshReg f.r8 f.m f.d
  | false, true, true, false, false => .tStrImm f.imm5 f.m f.d
  | false, true, true, false, true => .tLdrImm f.imm5 f.m f.d
  | false, true, true, true, false => .tStrbImm f.imm5 f.m f.d
  | false, true, true, true, true => .tLdrbImm f.imm5 f.m f.d
  | true, false, false, false, false => .tStrhImm f.imm5 f.m f.d
  | true, false, false, false, true => .tLdrhImm f.imm5 f.m f.d
  | true, false, false, true, false => .tStrSp f.r10 f.imm8
  | true, false, false, true, true => .tLdrSp f.r10 f.imm8
  | true, false, true, false, false => .tAddPcImm f.r10 f.imm8
  | true, false, true, false, true => .tAddSpImm f.r10 f.imm8
  | true, false, true, true, _ => decodeThumbMisc f
  | true, true, false, false, false => .tStmia f.r10 f.imm8
  | true, true, false, false, true => .tLdmia f.r10 f.imm8
  | true, true, false, true, b11 =>
    match Cond.ofBits (nib b11 f.b10 f.b9 f.b8) with
    | some .al => .undefinedThumb f.imm8
    | some c => .tBCond c f.imm8
    | none => .tSwi f.imm8
  | true, true, true, false, false => .tB f.imm11
  | true, true, true, false, true =>
    if f.d.getLsbD 0 then .unallocBlxSuffix (f.imm11.extractLsb' 1 10)
    else .tBlxSuffix (f.imm11.extractLsb' 1 10)
  | true, true, true, true, false => .tBlPrefix f.imm11
  | true, true, true, true, true => .tBlSuffix f.imm11

/-! ## Encoding -/

/-- A field list with the low 8 bits given as one number. -/
def Enc.low8 (cond : BitVec 4) (b27 b26 b25 b24 b23 b22 b21 b20 : Bool) (rn rd rs : Reg) (x : BitVec 8) : ArmWord :=
  ⟨cond, b27, b26, b25, b24, b23, b22, b21, b20, rn, rd, rs,
    x.getLsbD 7, x.getLsbD 6, x.getLsbD 5, x.getLsbD 4, x.extractLsb' 0 4⟩

/-- The same with the low 12 bits as one number. -/
def Enc.low12 (cond : BitVec 4) (b27 b26 b25 b24 b23 b22 b21 b20 : Bool) (rn rd : Reg) (x : BitVec 12) : ArmWord :=
  Enc.low8 cond b27 b26 b25 b24 b23 b22 b21 b20 rn rd (x.extractLsb' 8 4) (x.extractLsb' 0 8)

/-- The same with the low 20 bits as one number. -/
def Enc.low20 (cond : BitVec 4) (b27 b26 b25 b24 b23 b22 b21 b20 : Bool) (x : BitVec 20) : ArmWord :=
  Enc.low12 cond b27 b26 b25 b24 b23 b22 b21 b20 (x.extractLsb' 16 4) (x.extractLsb' 12 4) (x.extractLsb' 0 12)

/-- cond, four bits [27:24] and a 24-bit immediate: B, BL, BLX(1), SWI (R109). -/
def Enc.imm24 (cond : BitVec 4) (b27 b26 b25 b24 : Bool) (x : BitVec 24) : ArmWord :=
  Enc.low20 cond b27 b26 b25 b24 (x.getLsbD 23) (x.getLsbD 22) (x.getLsbD 21) (x.getLsbD 20) (x.extractLsb' 0 20)

/-- cond and 28 raw bits. -/
def Enc.raw28 (cond : BitVec 4) (x : BitVec 28) : ArmWord :=
  Enc.imm24 cond (x.getLsbD 27) (x.getLsbD 26) (x.getLsbD 25) (x.getLsbD 24) (x.extractLsb' 0 24)

/-- [27:25] = 110, four bits [24:21] and 21 raw bits: the patterns of rows 3 and 4. -/
def Enc.top11 (cond : BitVec 4) (b24 b23 b22 b21 : Bool) (x : BitVec 21) : ArmWord :=
  Enc.low20 cond true true false b24 b23 b22 b21 (x.getLsbD 20) (x.extractLsb' 0 20)

/-- A shift by an immediate amount in bits [11:4]. -/
def Enc.shiftForm (cond : BitVec 4) (b27 b26 b25 b24 b23 b22 b21 b20 : Bool) (rn rd : Reg) (sh : BitVec 5)
    (k : ShiftKind) (rm : Reg) : ArmWord :=
  ⟨cond, b27, b26, b25, b24, b23, b22, b21, b20, rn, rd, sh.extractLsb' 1 4, sh.getLsbD 0, k.hi, k.lo, false, rm⟩

/-- PLD, immediate offset (R111). -/
def Enc.pldImm (u : Bool) (rn : Reg) (x : BitVec 12) : ArmWord :=
  Enc.low12 15 false true false true u true false true rn 15 x
/-- PLD, register offset (R111). -/
def Enc.pldReg (u : Bool) (rn : Reg) (sh : BitVec 5) (k : ShiftKind) (rm : Reg) : ArmWord :=
  Enc.shiftForm 15 false true true true u true false true rn 15 sh k rm
/-- Data processing, immediate shift (R102). -/
def Enc.dpShift (cond : BitVec 4) (b24 b23 b22 b21 sf : Bool) (rn rd : Reg) (sh : BitVec 5) (k : ShiftKind) (rm : Reg) :
    ArmWord := Enc.shiftForm cond false false false b24 b23 b22 b21 sf rn rd sh k rm
/-- Data processing, register shift (R102). -/
def Enc.dpRegShift (cond : BitVec 4) (b24 b23 b22 b21 sf : Bool) (rn rd rs : Reg) (k : ShiftKind) (rm : Reg) : ArmWord :=
  ⟨cond, false, false, false, b24, b23, b22, b21, sf, rn, rd, rs, false, k.hi, k.lo, true, rm⟩
/-- Data processing, immediate (R102), and MSR immediate (R105). -/
def Enc.dpImm (cond : BitVec 4) (b24 b23 b22 b21 sf : Bool) (rn rd rot : Reg) (x : BitVec 8) : ArmWord :=
  Enc.low8 cond false false true b24 b23 b22 b21 sf rn rd rot x
/-- Word and byte loads and stores, immediate offset (R106). -/
def Enc.lsImm (cond : BitVec 4) (p u b w l : Bool) (rn rd : Reg) (x : BitVec 12) : ArmWord :=
  Enc.low12 cond false true false p u b w l rn rd x
/-- Word and byte loads and stores, register offset (R106). -/
def Enc.lsReg (cond : BitVec 4) (p u b w l : Bool) (rn rd : Reg) (sh : BitVec 5) (k : ShiftKind) (rm : Reg) : ArmWord :=
  Enc.shiftForm cond false true true p u b w l rn rd sh k rm
/-- Halfword forms, immediate offset (R107). -/
def Enc.lshImm (cond : BitVec 4) (p u w l : Bool) (rn rd : Reg) (sb h : Bool) (x : BitVec 8) : ArmWord :=
  ⟨cond, false, false, false, p, u, true, w, l, rn, rd, x.extractLsb' 4 4, true, sb, h, true, x.extractLsb' 0 4⟩
/-- Halfword forms, register offset (R107). -/
def Enc.lshReg (cond : BitVec 4) (p u w l : Bool) (rn rd sbz : Reg) (sb h : Bool) (rm : Reg) : ArmWord :=
  ⟨cond, false, false, false, p, u, false, w, l, rn, rd, sbz, true, sb, h, true, rm⟩
/-- Multiplies (R103): bits [23:21], S, then the four register fields from [19:16] down. -/
def Enc.mul (cond : BitVec 4) (b23 b22 b21 sf : Bool) (r19 r15 r11 r3 : Reg) : ArmWord :=
  ⟨cond, false, false, false, false, b23, b22, b21, sf, r19, r15, r11, true, false, false, true, r3⟩
/-- SWP, SWPB and the space around them (R107): bits [23:20] and the register fields. -/
def Enc.ext (cond : BitVec 4) (b23 b22 b21 b20 : Bool) (rn rd rs rm : Reg) : ArmWord :=
  ⟨cond, false, false, false, true, b23, b22, b21, b20, rn, rd, rs, true, false, false, true, rm⟩
/-- The miscellaneous and DSP space (R104, R105): bits [22:21], the register fields and bits [7:4]. -/
def Enc.misc (cond : BitVec 4) (b22 b21 : Bool) (r19 r15 r11 : Reg) (b7 b6 b5 b4 : Bool) (r3 : Reg) : ArmWord :=
  ⟨cond, false, false, false, true, false, b22, b21, false, r19, r15, r11, b7, b6, b5, b4, r3⟩
/-- BKPT (R105). -/
def Enc.bkpt (cond : BitVec 4) (hi : BitVec 12) (lo : BitVec 4) : ArmWord :=
  Enc.misc cond false true (hi.extractLsb' 8 4) (hi.extractLsb' 4 4) (hi.extractLsb' 0 4) false true true true lo
/-- Load and store multiple (R108) with a 16-bit list. -/
def Enc.lsm16 (cond : BitVec 4) (p u sb w l : Bool) (rn : Reg) (x : BitVec 16) : ArmWord :=
  Enc.low12 cond true false false p u sb w l rn (x.extractLsb' 12 4) (x.extractLsb' 0 12)
/-- Load and store multiple with bit 15 of the list given apart. -/
def Enc.lsm (cond : BitVec 4) (p u sb w l : Bool) (rn : Reg) (x : Bool × BitVec 15) : ArmWord :=
  Enc.low12 cond true false false p u sb w l rn (BitVec.ofBool x.1 ++ x.2.extractLsb' 12 3) (x.2.extractLsb' 0 12)
/-- The undefined space [27:25] = 011, [4] = 1 (R113): bits [24:5] and [3:0]. -/
def Enc.undef011 (cond : BitVec 4) (hi : BitVec 20) (lo : BitVec 4) : ArmWord :=
  ⟨cond, false, true, true, hi.getLsbD 19, hi.getLsbD 18, hi.getLsbD 17, hi.getLsbD 16, hi.getLsbD 15,
    hi.extractLsb' 11 4, hi.extractLsb' 7 4, hi.extractLsb' 3 4, hi.getLsbD 2, hi.getLsbD 1, hi.getLsbD 0, true, lo⟩
/-- LDC and STC (R110). -/
def Enc.cpLoadStore (cond : BitVec 4) (a : CpIndexing) (n l : Bool) (rn crd cp : Reg) (x : BitVec 8) : ArmWord :=
  Enc.low8 cond true true false a.p a.u n a.w l rn crd cp x
/-- CDP (R110). -/
def Enc.cdp (cond : BitVec 4) (op1 : BitVec 4) (crn crd cp : Reg) (op2 : BitVec 3) (crm : Reg) : ArmWord :=
  ⟨cond, true, true, true, false, op1.getLsbD 3, op1.getLsbD 2, op1.getLsbD 1, op1.getLsbD 0, crn, crd, cp,
    op2.getLsbD 2, op2.getLsbD 1, op2.getLsbD 0, false, crm⟩
/-- MCR and MRC (R110). -/
def Enc.mcr (cond : BitVec 4) (l : Bool) (op1 : BitVec 3) (crn rd cp : Reg) (op2 : BitVec 3) (crm : Reg) : ArmWord :=
  ⟨cond, true, true, true, false, op1.getLsbD 2, op1.getLsbD 1, op1.getLsbD 0, l, crn, rd, cp,
    op2.getLsbD 2, op2.getLsbD 1, op2.getLsbD 0, true, crm⟩
/-- MCRR and MRRC (R110). -/
def Enc.mcrr (cond : BitVec 4) (l : Bool) (rn rd cp : Reg) (op : BitVec 4) (crm : Reg) : ArmWord :=
  ⟨cond, true, true, false, false, false, true, false, l, rn, rd, cp,
    op.getLsbD 3, op.getLsbD 2, op.getLsbD 1, op.getLsbD 0, crm⟩
/-- [27:25] = 110 with the coprocessor number and 13 + 8 raw bits around it. -/
def Enc.cpClass (cond : BitVec 4) (hi : BitVec 13) (cp : Reg) (lo : BitVec 8) : ArmWord :=
  Enc.low8 cond true true false (hi.getLsbD 12) (hi.getLsbD 11) (hi.getLsbD 10) (hi.getLsbD 9) (hi.getLsbD 8)
    (hi.extractLsb' 4 4) (hi.extractLsb' 0 4) cp lo
/-- The coprocessor extension space P = U = N = W = 0 (R113). -/
def Enc.cpUnalloc (cond : BitVec 4) (b20 : Bool) (rn rd cp : Reg) (lo : BitVec 8) : ArmWord :=
  Enc.low8 cond true true false false false false false b20 rn rd cp lo

/-- Five bits [15:11], immed_5, two low registers (R115, T1, T9, T10). -/
def Enc.tImm5 (b15 b14 b13 b12 b11 : Bool) (x : BitVec 5) (m d : LoReg) : ThumbWord :=
  ⟨b15, b14, b13, b12, b11, x.getLsbD 4, x.getLsbD 3, x.getLsbD 2, x.getLsbD 1, x.getLsbD 0, m, d⟩
/-- Seven bits [15:9] and three 3-bit fields (R115, T2, T7, T8). -/
def Enc.tThree (b15 b14 b13 b12 b11 b10 b9 : Bool) (x : BitVec 3) (m d : LoReg) : ThumbWord :=
  ⟨b15, b14, b13, b12, b11, b10, b9, x.getLsbD 2, x.getLsbD 1, x.getLsbD 0, m, d⟩
/-- Eight bits [15:8] and an 8-bit field. -/
def Enc.tByte4 (b15 b14 b13 b12 b11 b10 b9 b8 : Bool) (x : BitVec 8) : ThumbWord :=
  ⟨b15, b14, b13, b12, b11, b10, b9, b8, x.getLsbD 7, x.getLsbD 6, x.extractLsb' 3 3, x.extractLsb' 0 3⟩
/-- Five bits [15:11], a low register, an 8-bit field (R115, T3, T6, T11, T12, T15). -/
def Enc.tImm8 (b15 b14 b13 b12 b11 : Bool) (r : LoReg) (x : BitVec 8) : ThumbWord :=
  Enc.tByte4 b15 b14 b13 b12 b11 (r.getLsbD 2) (r.getLsbD 1) (r.getLsbD 0) x
/-- Data processing on two low registers (R115, T4). -/
def Enc.tAlu (b9 b8 b7 b6 : Bool) (m d : LoReg) : ThumbWord :=
  ⟨false, true, false, false, false, false, b9, b8, b7, b6, m, d⟩
/-- High-register operations (R115, T5): bits [9:8], the full register numbers H2:Rm and H1:Rd. -/
def Enc.tHi (b9 b8 : Bool) (rm rd : Reg) : ThumbWord :=
  ⟨false, true, false, false, false, true, b9, b8, rd.getLsbD 3, rm.getLsbD 3, rm.extractLsb' 0 3, rd.extractLsb' 0 3⟩
/-- BX and BLX (R115, T5 with op = 11). -/
def Enc.tBx (h1 : Bool) (rm : Reg) (sbz : BitVec 3) : ThumbWord :=
  ⟨false, true, false, false, false, true, true, true, h1, rm.getLsbD 3, rm.extractLsb' 0 3, sbz⟩
/-- ADD and SUB of an immediate to SP (R115, T13). -/
def Enc.tAdjustSp (sub : Bool) (x : BitVec 7) : ThumbWord :=
  ⟨true, false, true, true, false, false, false, false, sub, x.getLsbD 6, x.extractLsb' 3 3, x.extractLsb' 0 3⟩
/-- 1011 and 12 raw bits. -/
def Enc.tRaw12 (x : BitVec 12) : ThumbWord :=
  Enc.tByte4 true false true true (x.getLsbD 11) (x.getLsbD 10) (x.getLsbD 9) (x.getLsbD 8) (x.extractLsb' 0 8)
/-- B<cond> (R115, T16). -/
def Enc.tBCond (c : Cond) (x : BitVec 8) : ThumbWord :=
  Enc.tByte4 true true false true (c.bits.getLsbD 3) (c.bits.getLsbD 2) (c.bits.getLsbD 1) (c.bits.getLsbD 0) x
/-- Five bits [15:11] and an 11-bit field (R115, T18, T19). -/
def Enc.tImm11 (b15 b14 b13 b12 b11 : Bool) (x : BitVec 11) : ThumbWord :=
  Enc.tByte4 b15 b14 b13 b12 b11 (x.getLsbD 10) (x.getLsbD 9) (x.getLsbD 8) (x.extractLsb' 0 8)

/-- The code of one instruction: a word in ARM state, a halfword in Thumb state (R98). -/
inductive Code
  | arm (w : BitVec 32)
  | thumb (h : BitVec 16)
deriving DecidableEq, Repr

/-- The code given by its fields. -/
inductive Fields
  | arm (f : ArmWord)
  | thumb (f : ThumbWord)
deriving DecidableEq, Repr

/-- The fields of an instruction, from the formats of R102 to R111 and R115. -/
def encodeFields : Instr → Fields
  | .pldImm u rn imm => .arm (Enc.pldImm u rn imm)
  | .pldReg u rn sh k rm => .arm (Enc.pldReg u rn sh k rm)
  | .blxImm h imm => .arm (Enc.imm24 15 true false true h imm)
  | .unallocUncondLsm bits => .arm (Enc.top11 15 false false false false bits)
  | .unallocUncondMcrr bits => .arm (Enc.top11 15 false false true false bits)
  | .ldc2 a n rn crd cp imm => .arm (Enc.cpLoadStore 15 a n true rn crd cp imm)
  | .stc2 a n rn crd cp imm => .arm (Enc.cpLoadStore 15 a n false rn crd cp imm)
  | .cdp2 op1 crn crd cp op2 crm => .arm (Enc.cdp 15 op1 crn crd cp op2 crm)
  | .mcr2 op1 crn rd cp op2 crm => .arm (Enc.mcr 15 false op1 crn rd cp op2 crm)
  | .mrc2 op1 crn rd cp op2 crm => .arm (Enc.mcr 15 true op1 crn rd cp op2 crm)
  | .unallocUncond bits => .arm (Enc.raw28 15 bits)
  | .mrcTcmSize c rd => .arm (Enc.mcr c.bits true 0 0 rd 15 2 0)
  | .mrcIdCode c rd op2 => .arm (Enc.mcr c.bits true 0 0 rd 15 op2 0)
  | .mrcControl c rd => .arm (Enc.mcr c.bits true 0 1 rd 15 0 0)
  | .mcrControl c rd => .arm (Enc.mcr c.bits false 0 1 rd 15 0 0)
  | .mcrWaitForInterrupt c rd => .arm (Enc.mcr c.bits false 0 7 rd 15 4 0)
  | .mcrWaitForInterruptLegacy c rd => .arm (Enc.mcr c.bits false 0 15 rd 15 2 8)
  | .mcrDrainWriteBuffer c rd => .arm (Enc.mcr c.bits false 0 7 rd 15 4 10)
  | .mrcProcId c rd crm => .arm (Enc.mcr c.bits true 0 13 rd 15 0 crm)
  | .mcrProcId c rd crm => .arm (Enc.mcr c.bits false 0 13 rd 15 0 crm)
  | .mrcConfigControl c rd => .arm (Enc.mcr c.bits true 1 15 rd 15 0 1)
  | .mcrConfigControl c rd => .arm (Enc.mcr c.bits false 1 15 rd 15 0 1)
  | .mrcBistControl c rd => .arm (Enc.mcr c.bits true 1 15 rd 15 1 0)
  | .mcrBistControl c rd => .arm (Enc.mcr c.bits false 1 15 rd 15 1 0)
  | .mrcIBistAddress c rd => .arm (Enc.mcr c.bits true 1 15 rd 15 2 0)
  | .mcrIBistAddress c rd => .arm (Enc.mcr c.bits false 1 15 rd 15 2 0)
  | .mrcIBistGeneral c rd => .arm (Enc.mcr c.bits true 1 15 rd 15 3 0)
  | .mcrIBistGeneral c rd => .arm (Enc.mcr c.bits false 1 15 rd 15 3 0)
  | .mrcDBistAddress c rd => .arm (Enc.mcr c.bits true 1 15 rd 15 6 0)
  | .mcrDBistAddress c rd => .arm (Enc.mcr c.bits false 1 15 rd 15 6 0)
  | .mrcDBistGeneral c rd => .arm (Enc.mcr c.bits true 1 15 rd 15 7 0)
  | .mcrDBistGeneral c rd => .arm (Enc.mcr c.bits false 1 15 rd 15 7 0)
  | .p15Other c l op1 crn rd op2 crm => .arm (Enc.mcr c.bits l op1 crn rd 15 op2 crm)
  | .mrcCommsStatus c rd => .arm (Enc.mcr c.bits true 0 0 rd 14 0 0)
  | .mrcCommsData c rd => .arm (Enc.mcr c.bits true 0 1 rd 14 0 0)
  | .mcrCommsData c rd => .arm (Enc.mcr c.bits false 0 1 rd 14 0 0)
  | .mrcMonitorStatus c rd => .arm (Enc.mcr c.bits true 0 2 rd 14 0 0)
  | .mcrMonitorStatus c rd => .arm (Enc.mcr c.bits false 0 2 rd 14 0 0)
  | .p14Other c l op1 crn rd op2 crm => .arm (Enc.mcr c.bits l op1 crn rd 14 op2 crm)
  | .p15Transfer c hi lo => .arm (Enc.cpClass c.bits hi 15 lo)
  | .p15Cdp c op1 crn crd op2 crm => .arm (Enc.cdp c.bits op1 crn crd 15 op2 crm)
  | .p14Transfer c hi lo => .arm (Enc.cpClass c.bits hi 14 lo)
  | .p14Cdp c op1 crn crd op2 crm => .arm (Enc.cdp c.bits op1 crn crd 14 op2 crm)
  | .mcrr c rn rd cp op crm => .arm (Enc.mcrr c.bits false rn rd cp op crm)
  | .mrrc c rn rd cp op crm => .arm (Enc.mcrr c.bits true rn rd cp op crm)
  | .unallocCp c b20 rn rd cp lo => .arm (Enc.cpUnalloc c.bits b20 rn rd cp lo)
  | .ldc c a n rn crd cp imm => .arm (Enc.cpLoadStore c.bits a n true rn crd cp imm)
  | .stc c a n rn crd cp imm => .arm (Enc.cpLoadStore c.bits a n false rn crd cp imm)
  | .cdp c op1 crn crd cp op2 crm => .arm (Enc.cdp c.bits op1 crn crd cp op2 crm)
  | .mcr c op1 crn rd cp op2 crm => .arm (Enc.mcr c.bits false op1 crn rd cp op2 crm)
  | .mrc c op1 crn rd cp op2 crm => .arm (Enc.mcr c.bits true op1 crn rd cp op2 crm)
  | .swi c imm => .arm (Enc.imm24 c.bits true true true true imm)
  | .b c imm => .arm (Enc.imm24 c.bits true false true false imm)
  | .bl c imm => .arm (Enc.imm24 c.bits true false true true imm)
  | .ldmReturn c p u w rn list => .arm (Enc.lsm c.bits p u true w true rn (true, list))
  | .ldmUser c p u w rn list => .arm (Enc.lsm c.bits p u true w true rn (false, list))
  | .ldm c p u w rn list => .arm (Enc.lsm16 c.bits p u false w true rn list)
  | .stmUser c p u w rn list => .arm (Enc.lsm16 c.bits p u true w false rn list)
  | .stm c p u w rn list => .arm (Enc.lsm16 c.bits p u false w false rn list)
  | .undefinedArm c hi lo => .arm (Enc.undef011 c.bits hi lo)
  | .ldrtImm c u rn rd imm => .arm (Enc.lsImm c.bits false u false true true rn rd imm)
  | .ldrtReg c u rn rd sh k rm => .arm (Enc.lsReg c.bits false u false true true rn rd sh k rm)
  | .ldrbtImm c u rn rd imm => .arm (Enc.lsImm c.bits false u true true true rn rd imm)
  | .ldrbtReg c u rn rd sh k rm => .arm (Enc.lsReg c.bits false u true true true rn rd sh k rm)
  | .strtImm c u rn rd imm => .arm (Enc.lsImm c.bits false u false true false rn rd imm)
  | .strtReg c u rn rd sh k rm => .arm (Enc.lsReg c.bits false u false true false rn rd sh k rm)
  | .strbtImm c u rn rd imm => .arm (Enc.lsImm c.bits false u true true false rn rd imm)
  | .strbtReg c u rn rd sh k rm => .arm (Enc.lsReg c.bits false u true true false rn rd sh k rm)
  | .ldrImm c x u rn rd imm => .arm (Enc.lsImm c.bits x.p u false x.w true rn rd imm)
  | .ldrReg c x u rn rd sh k rm => .arm (Enc.lsReg c.bits x.p u false x.w true rn rd sh k rm)
  | .ldrbImm c x u rn rd imm => .arm (Enc.lsImm c.bits x.p u true x.w true rn rd imm)
  | .ldrbReg c x u rn rd sh k rm => .arm (Enc.lsReg c.bits x.p u true x.w true rn rd sh k rm)
  | .strImm c x u rn rd imm => .arm (Enc.lsImm c.bits x.p u false x.w false rn rd imm)
  | .strReg c x u rn rd sh k rm => .arm (Enc.lsReg c.bits x.p u false x.w false rn rd sh k rm)
  | .strbImm c x u rn rd imm => .arm (Enc.lsImm c.bits x.p u true x.w false rn rd imm)
  | .strbReg c x u rn rd sh k rm => .arm (Enc.lsReg c.bits x.p u true x.w false rn rd sh k rm)
  | .mul c sf rd sbz rs rm => .arm (Enc.mul c.bits false false false sf rd sbz rs rm)
  | .mla c sf rd rn rs rm => .arm (Enc.mul c.bits false false true sf rd rn rs rm)
  | .unallocArith c b21 b20 rn rd rs rm => .arm (Enc.mul c.bits false true b21 b20 rn rd rs rm)
  | .umull c sf rdHi rdLo rs rm => .arm (Enc.mul c.bits true false false sf rdHi rdLo rs rm)
  | .umlal c sf rdHi rdLo rs rm => .arm (Enc.mul c.bits true false true sf rdHi rdLo rs rm)
  | .smull c sf rdHi rdLo rs rm => .arm (Enc.mul c.bits true true false sf rdHi rdLo rs rm)
  | .smlal c sf rdHi rdLo rs rm => .arm (Enc.mul c.bits true true true sf rdHi rdLo rs rm)
  | .swp c rn rd sbz rm => .arm (Enc.ext c.bits false false false false rn rd sbz rm)
  | .swpb c rn rd sbz rm => .arm (Enc.ext c.bits false true false false rn rd sbz rm)
  | .unallocExt c b23 b22 b21 b20 rn rd rs rm => .arm (Enc.ext c.bits b23 b22 b21 b20 rn rd rs rm)
  | .strhImm c p u w rn rd imm => .arm (Enc.lshImm c.bits p u w false rn rd false true imm)
  | .strhReg c p u w rn rd sbz rm => .arm (Enc.lshReg c.bits p u w false rn rd sbz false true rm)
  | .ldrdImm c p u w rn rd imm => .arm (Enc.lshImm c.bits p u w false rn rd true false imm)
  | .ldrdReg c p u w rn rd sbz rm => .arm (Enc.lshReg c.bits p u w false rn rd sbz true false rm)
  | .strdImm c p u w rn rd imm => .arm (Enc.lshImm c.bits p u w false rn rd true true imm)
  | .strdReg c p u w rn rd sbz rm => .arm (Enc.lshReg c.bits p u w false rn rd sbz true true rm)
  | .ldrhImm c p u w rn rd imm => .arm (Enc.lshImm c.bits p u w true rn rd false true imm)
  | .ldrhReg c p u w rn rd sbz rm => .arm (Enc.lshReg c.bits p u w true rn rd sbz false true rm)
  | .ldrsbImm c p u w rn rd imm => .arm (Enc.lshImm c.bits p u w true rn rd true false imm)
  | .ldrsbReg c p u w rn rd sbz rm => .arm (Enc.lshReg c.bits p u w true rn rd sbz true false rm)
  | .ldrshImm c p u w rn rd imm => .arm (Enc.lshImm c.bits p u w true rn rd true true imm)
  | .ldrshReg c p u w rn rd sbz rm => .arm (Enc.lshReg c.bits p u w true rn rd sbz true true rm)
  | .mrs c r sbo rd sbz1 sbz0 => .arm (Enc.misc c.bits r false sbo rd sbz1 false false false false sbz0)
  | .msrReg c r mask sbo sbz rm => .arm (Enc.misc c.bits r true mask sbo sbz false false false false rm)
  | .bx c sbo2 sbo1 sbo0 rm => .arm (Enc.misc c.bits false true sbo2 sbo1 sbo0 false false false true rm)
  | .clz c sbo1 rd sbo0 rm => .arm (Enc.misc c.bits true true sbo1 rd sbo0 false false false true rm)
  | .blxReg c sbo2 sbo1 sbo0 rm => .arm (Enc.misc c.bits false true sbo2 sbo1 sbo0 false false true true rm)
  | .qadd c rn rd sbz rm => .arm (Enc.misc c.bits false false rn rd sbz false true false true rm)
  | .qsub c rn rd sbz rm => .arm (Enc.misc c.bits false true rn rd sbz false true false true rm)
  | .qdadd c rn rd sbz rm => .arm (Enc.misc c.bits true false rn rd sbz false true false true rm)
  | .qdsub c rn rd sbz rm => .arm (Enc.misc c.bits true true rn rd sbz false true false true rm)
  | .bkpt c immHi immLo => .arm (Enc.bkpt c.bits immHi immLo)
  | .smlaxy c x y rd rn rs rm => .arm (Enc.misc c.bits false false rd rn rs true y x false rm)
  | .smlawy c y rd rn rs rm => .arm (Enc.misc c.bits false true rd rn rs true y false false rm)
  | .smulwy c y rd sbz rs rm => .arm (Enc.misc c.bits false true rd sbz rs true y true false rm)
  | .smlalxy c x y rdHi rdLo rs rm => .arm (Enc.misc c.bits true false rdHi rdLo rs true y x false rm)
  | .smulxy c x y rd sbz rs rm => .arm (Enc.misc c.bits true true rd sbz rs true y x false rm)
  | .unallocMisc c b22 b21 rn rd rs b7 b6 b5 b4 rm => .arm (Enc.misc c.bits b22 b21 rn rd rs b7 b6 b5 b4 rm)
  | .msrImm c r mask sbo rot imm => .arm (Enc.dpImm c.bits true false r true false mask sbo rot imm)
  | .undefinedArm2 c b22 rn rd rot imm => .arm (Enc.dpImm c.bits true false b22 false false rn rd rot imm)
  | .andShift c sf rn rd sh k rm => .arm (Enc.dpShift c.bits false false false false sf rn rd sh k rm)
  | .andRegShift c sf rn rd rs k rm => .arm (Enc.dpRegShift c.bits false false false false sf rn rd rs k rm)
  | .andImm c sf rn rd rot imm => .arm (Enc.dpImm c.bits false false false false sf rn rd rot imm)
  | .eorShift c sf rn rd sh k rm => .arm (Enc.dpShift c.bits false false false true sf rn rd sh k rm)
  | .eorRegShift c sf rn rd rs k rm => .arm (Enc.dpRegShift c.bits false false false true sf rn rd rs k rm)
  | .eorImm c sf rn rd rot imm => .arm (Enc.dpImm c.bits false false false true sf rn rd rot imm)
  | .subShift c sf rn rd sh k rm => .arm (Enc.dpShift c.bits false false true false sf rn rd sh k rm)
  | .subRegShift c sf rn rd rs k rm => .arm (Enc.dpRegShift c.bits false false true false sf rn rd rs k rm)
  | .subImm c sf rn rd rot imm => .arm (Enc.dpImm c.bits false false true false sf rn rd rot imm)
  | .rsbShift c sf rn rd sh k rm => .arm (Enc.dpShift c.bits false false true true sf rn rd sh k rm)
  | .rsbRegShift c sf rn rd rs k rm => .arm (Enc.dpRegShift c.bits false false true true sf rn rd rs k rm)
  | .rsbImm c sf rn rd rot imm => .arm (Enc.dpImm c.bits false false true true sf rn rd rot imm)
  | .addShift c sf rn rd sh k rm => .arm (Enc.dpShift c.bits false true false false sf rn rd sh k rm)
  | .addRegShift c sf rn rd rs k rm => .arm (Enc.dpRegShift c.bits false true false false sf rn rd rs k rm)
  | .addImm c sf rn rd rot imm => .arm (Enc.dpImm c.bits false true false false sf rn rd rot imm)
  | .adcShift c sf rn rd sh k rm => .arm (Enc.dpShift c.bits false true false true sf rn rd sh k rm)
  | .adcRegShift c sf rn rd rs k rm => .arm (Enc.dpRegShift c.bits false true false true sf rn rd rs k rm)
  | .adcImm c sf rn rd rot imm => .arm (Enc.dpImm c.bits false true false true sf rn rd rot imm)
  | .sbcShift c sf rn rd sh k rm => .arm (Enc.dpShift c.bits false true true false sf rn rd sh k rm)
  | .sbcRegShift c sf rn rd rs k rm => .arm (Enc.dpRegShift c.bits false true true false sf rn rd rs k rm)
  | .sbcImm c sf rn rd rot imm => .arm (Enc.dpImm c.bits false true true false sf rn rd rot imm)
  | .rscShift c sf rn rd sh k rm => .arm (Enc.dpShift c.bits false true true true sf rn rd sh k rm)
  | .rscRegShift c sf rn rd rs k rm => .arm (Enc.dpRegShift c.bits false true true true sf rn rd rs k rm)
  | .rscImm c sf rn rd rot imm => .arm (Enc.dpImm c.bits false true true true sf rn rd rot imm)
  | .tstShift c rn sbz sh k rm => .arm (Enc.dpShift c.bits true false false false true rn sbz sh k rm)
  | .tstRegShift c rn sbz rs k rm => .arm (Enc.dpRegShift c.bits true false false false true rn sbz rs k rm)
  | .tstImm c rn sbz rot imm => .arm (Enc.dpImm c.bits true false false false true rn sbz rot imm)
  | .teqShift c rn sbz sh k rm => .arm (Enc.dpShift c.bits true false false true true rn sbz sh k rm)
  | .teqRegShift c rn sbz rs k rm => .arm (Enc.dpRegShift c.bits true false false true true rn sbz rs k rm)
  | .teqImm c rn sbz rot imm => .arm (Enc.dpImm c.bits true false false true true rn sbz rot imm)
  | .cmpShift c rn sbz sh k rm => .arm (Enc.dpShift c.bits true false true false true rn sbz sh k rm)
  | .cmpRegShift c rn sbz rs k rm => .arm (Enc.dpRegShift c.bits true false true false true rn sbz rs k rm)
  | .cmpImm c rn sbz rot imm => .arm (Enc.dpImm c.bits true false true false true rn sbz rot imm)
  | .cmnShift c rn sbz sh k rm => .arm (Enc.dpShift c.bits true false true true true rn sbz sh k rm)
  | .cmnRegShift c rn sbz rs k rm => .arm (Enc.dpRegShift c.bits true false true true true rn sbz rs k rm)
  | .cmnImm c rn sbz rot imm => .arm (Enc.dpImm c.bits true false true true true rn sbz rot imm)
  | .orrShift c sf rn rd sh k rm => .arm (Enc.dpShift c.bits true true false false sf rn rd sh k rm)
  | .orrRegShift c sf rn rd rs k rm => .arm (Enc.dpRegShift c.bits true true false false sf rn rd rs k rm)
  | .orrImm c sf rn rd rot imm => .arm (Enc.dpImm c.bits true true false false sf rn rd rot imm)
  | .movShift c sf sbz rd sh k rm => .arm (Enc.dpShift c.bits true true false true sf sbz rd sh k rm)
  | .movRegShift c sf sbz rd rs k rm => .arm (Enc.dpRegShift c.bits true true false true sf sbz rd rs k rm)
  | .movImm c sf sbz rd rot imm => .arm (Enc.dpImm c.bits true true false true sf sbz rd rot imm)
  | .bicShift c sf rn rd sh k rm => .arm (Enc.dpShift c.bits true true true false sf rn rd sh k rm)
  | .bicRegShift c sf rn rd rs k rm => .arm (Enc.dpRegShift c.bits true true true false sf rn rd rs k rm)
  | .bicImm c sf rn rd rot imm => .arm (Enc.dpImm c.bits true true true false sf rn rd rot imm)
  | .mvnShift c sf sbz rd sh k rm => .arm (Enc.dpShift c.bits true true true true sf sbz rd sh k rm)
  | .mvnRegShift c sf sbz rd rs k rm => .arm (Enc.dpRegShift c.bits true true true true sf sbz rd rs k rm)
  | .mvnImm c sf sbz rd rot imm => .arm (Enc.dpImm c.bits true true true true sf sbz rd rot imm)
  | .tLslImm imm rm rd => .thumb (Enc.tImm5 false false false false false imm rm rd)
  | .tLsrImm imm rm rd => .thumb (Enc.tImm5 false false false false true imm rm rd)
  | .tAsrImm imm rm rd => .thumb (Enc.tImm5 false false false true false imm rm rd)
  | .tAddReg rm rn rd => .thumb (Enc.tThree false false false true true false false rm rn rd)
  | .tSubReg rm rn rd => .thumb (Enc.tThree false false false true true false true rm rn rd)
  | .tAddImm3 imm rn rd => .thumb (Enc.tThree false false false true true true false imm rn rd)
  | .tSubImm3 imm rn rd => .thumb (Enc.tThree false false false true true true true imm rn rd)
  | .tMovImm rd imm => .thumb (Enc.tImm8 false false true false false rd imm)
  | .tCmpImm rn imm => .thumb (Enc.tImm8 false false true false true rn imm)
  | .tAddImm8 rd imm => .thumb (Enc.tImm8 false false true true false rd imm)
  | .tSubImm8 rd imm => .thumb (Enc.tImm8 false false true true true rd imm)
  | .tAnd rm rd => .thumb (Enc.tAlu false false false false rm rd)
  | .tEor rm rd => .thumb (Enc.tAlu false false false true rm rd)
  | .tLslReg rs rd => .thumb (Enc.tAlu false false true false rs rd)
  | .tLsrReg rs rd => .thumb (Enc.tAlu false false true true rs rd)
  | .tAsrReg rs rd => .thumb (Enc.tAlu false true false false rs rd)
  | .tAdc rm rd => .thumb (Enc.tAlu false true false true rm rd)
  | .tSbc rm rd => .thumb (Enc.tAlu false true true false rm rd)
  | .tRorReg rs rd => .thumb (Enc.tAlu false true true true rs rd)
  | .tTst rm rn => .thumb (Enc.tAlu true false false false rm rn)
  | .tNeg rm rd => .thumb (Enc.tAlu true false false true rm rd)
  | .tCmpReg rm rn => .thumb (Enc.tAlu true false true false rm rn)
  | .tCmn rm rn => .thumb (Enc.tAlu true false true true rm rn)
  | .tOrr rm rd => .thumb (Enc.tAlu true true false false rm rd)
  | .tMul rm rd => .thumb (Enc.tAlu true true false true rm rd)
  | .tBic rm rd => .thumb (Enc.tAlu true true true false rm rd)
  | .tMvn rm rd => .thumb (Enc.tAlu true true true true rm rd)
  | .tAddHi rm rd => .thumb (Enc.tHi false false rm rd)
  | .tCmpHi rm rn => .thumb (Enc.tHi false true rm rn)
  | .tMovHi rm rd => .thumb (Enc.tHi true false rm rd)
  | .tBx rm sbz => .thumb (Enc.tBx false rm sbz)
  | .tBlxReg rm sbz => .thumb (Enc.tBx true rm sbz)
  | .tLdrLit rd imm => .thumb (Enc.tImm8 false true false false true rd imm)
  | .tStrReg rm rn rd => .thumb (Enc.tThree false true false true false false false rm rn rd)
  | .tStrhReg rm rn rd => .thumb (Enc.tThree false true false true false false true rm rn rd)
  | .tStrbReg rm rn rd => .thumb (Enc.tThree false true false true false true false rm rn rd)
  | .tLdrsbReg rm rn rd => .thumb (Enc.tThree false true false true false true true rm rn rd)
  | .tLdrReg rm rn rd => .thumb (Enc.tThree false true false true true false false rm rn rd)
  | .tLdrhReg rm rn rd => .thumb (Enc.tThree false true false true true false true rm rn rd)
  | .tLdrbReg rm rn rd => .thumb (Enc.tThree false true false true true true false rm rn rd)
  | .tLdrshReg rm rn rd => .thumb (Enc.tThree false true false true true true true rm rn rd)
  | .tStrImm imm rn rd => .thumb (Enc.tImm5 false true true false false imm rn rd)
  | .tLdrImm imm rn rd => .thumb (Enc.tImm5 false true true false true imm rn rd)
  | .tStrbImm imm rn rd => .thumb (Enc.tImm5 false true true true false imm rn rd)
  | .tLdrbImm imm rn rd => .thumb (Enc.tImm5 false true true true true imm rn rd)
  | .tStrhImm imm rn rd => .thumb (Enc.tImm5 true false false false false imm rn rd)
  | .tLdrhImm imm rn rd => .thumb (Enc.tImm5 true false false false true imm rn rd)
  | .tStrSp rd imm => .thumb (Enc.tImm8 true false false true false rd imm)
  | .tLdrSp rd imm => .thumb (Enc.tImm8 true false false true true rd imm)
  | .tAddPcImm rd imm => .thumb (Enc.tImm8 true false true false false rd imm)
  | .tAddSpImm rd imm => .thumb (Enc.tImm8 true false true false true rd imm)
  | .tAddSp imm => .thumb (Enc.tAdjustSp false imm)
  | .tSubSp imm => .thumb (Enc.tAdjustSp true imm)
  | .tPush r list => .thumb (Enc.tByte4 true false true true false true false r list)
  | .tPop r list => .thumb (Enc.tByte4 true false true true true true false r list)
  | .tBkpt imm => .thumb (Enc.tByte4 true false true true true true true false imm)
  | .unallocThumbMisc bits => .thumb (Enc.tRaw12 bits)
  | .tStmia rn list => .thumb (Enc.tImm8 true true false false false rn list)
  | .tLdmia rn list => .thumb (Enc.tImm8 true true false false true rn list)
  | .undefinedThumb imm => .thumb (Enc.tByte4 true true false true true true true false imm)
  | .tSwi imm => .thumb (Enc.tByte4 true true false true true true true true imm)
  | .tBCond c imm => .thumb (Enc.tBCond c imm)
  | .tB imm => .thumb (Enc.tImm11 true true true false false imm)
  | .unallocBlxSuffix bits => .thumb (Enc.tImm11 true true true false true (bits ++ 1#1))
  | .tBlxSuffix imm => .thumb (Enc.tImm11 true true true false true (imm ++ 0#1))
  | .tBlPrefix imm => .thumb (Enc.tImm11 true true true true false imm)
  | .tBlSuffix imm => .thumb (Enc.tImm11 true true true true true imm)

/-- The instruction of a code given by its fields. -/
def decodeFields : Fields → Instr
  | .arm f => decodeArmFields f
  | .thumb f => decodeThumbFields f

/-- The code with these fields. -/
def Fields.toCode : Fields → Code
  | .arm f => .arm f.toBits
  | .thumb f => .thumb f.toBits

/-- The fields of a code. -/
def Code.fields : Code → Fields
  | .arm w => .arm (.ofBits w)
  | .thumb h => .thumb (.ofBits h)

/-- The instruction of a code. Every code is some row of the table: the rows UNALLOCATED and "any other" are
instructions of their own, whose meanings refuse by name. -/
def decode (c : Code) : Instr := decodeFields c.fields

/-- The code of an instruction. -/
def encode (i : Instr) : Code := (encodeFields i).toCode

/-! ## Bytes and the table's numbering -/

/-- Bytes, lowest address first, as one little-endian number. -/
def leNat : List Byte → Nat
  | [] => 0
  | b :: bs => b.toNat + 256 * leNat bs

/-- The bytes of an instruction's code as they lie in memory in little-endian operation (R99). -/
def Code.bytes : Code → List Byte
  | .arm w => [w.extractLsb' 0 8, w.extractLsb' 8 8, w.extractLsb' 16 8, w.extractLsb' 24 8]
  | .thumb h => [h.extractLsb' 0 8, h.extractLsb' 8 8]

/-- The first instruction of a byte list in the given instruction set, with the bytes behind it; none where the list
is too short to hold one. -/
def decodeBytes (thumb : Bool) (bs : List Byte) : Option (Instr × List Byte) :=
  match thumb, bs with
  | true, b0 :: b1 :: rest => some (decode (.thumb (BitVec.ofNat 16 (leNat [b0, b1]))), rest)
  | false, b0 :: b1 :: b2 :: b3 :: rest => some (decode (.arm (BitVec.ofNat 32 (leNat [b0, b1, b2, b3]))), rest)
  | _, _ => none

/-- The code whose table number is `w`: a row of at most 16 bits is a Thumb halfword, a longer one an ARM word. -/
def tableCode (nbits w : Nat) : Code :=
  if nbits ≤ 16 then .thumb (BitVec.ofNat 16 w) else .arm (BitVec.ofNat 32 w)

/-- The instruction that the decoder reads from an opcode-table word: the word's bytes are laid out as memory holds
them and given to the decoder. -/
def decodeTableWord (nbits w : Nat) : Option Instr :=
  (decodeBytes (decide (nbits ≤ 16)) (tableCode nbits w).bytes).map (·.1)

end Sys2Proof
end

