-- ==== Sys2Proof/Machine/State.lean ====
section
/-! DEFINITION. The state of the machine, all of it plain data, the reasons a step can stop, and the state after reset
(spec/10_state.md, spec/70_reset_and_hazards.md rule R352). INVENTORY.md lists every field with its rule. -/

namespace Sys2Proof.Machine

/-! ## Small types -/

/-- The seven modes of R23. -/
inductive Mode
  | usr | fiq | irq | svc | abt | und | sys
deriving DecidableEq, Repr

/-- The width of a data access (R59). -/
inductive Size
  | byte | half | word
deriving DecidableEq, Repr

/-- The two tightly-coupled memories (R47). -/
inductive Side
  | itcm | dtcm
deriving DecidableEq, Repr

/-- Sparse memory: (address, byte) pairs, addresses strictly rising, no byte equal to what an unlisted address reads
as (Memory.wf in Machine/Memory.lean). -/
abbrev Memory := List Host.Cell

/-- An entry of a TCM write buffer (R66): a word of the TCM, the byte lanes it holds, the data. -/
structure TcmEntry where
  word : Nat
  lanes : BitVec 4
  data : Word
deriving DecidableEq, Repr

/-- One TCM with its interface (R50, R53, R65, R66). `init` lists the bytes written since power-up, `err` the words
for which xTCMERROR answers a read. `hold` says that the order bit was set over a buffer with data, so that the next
access waits until it is empty (R37). -/
structure Tcm where
  mem : Memory
  init : List Nat
  err : List Nat
  buf : List TcmEntry
  hold : Bool
deriving DecidableEq, Repr

/-- An address entry of the AHB write buffer (R70): the first address, the size marker, whether the access is marked
User on the bus (R90), the byte lanes, and the data words, which follow each other in memory. -/
structure AhbEntry where
  addr : Word
  size : Size
  user : Bool
  lanes : BitVec 4
  data : List Word
deriving DecidableEq, Repr

/-- A region of the AHB that answers ERROR (R10, R88, R90). -/
structure ErrRegion where
  base : Nat
  size : Nat
  onRead : Bool
  onWrite : Bool
  onFetch : Bool
  userOnly : Bool
deriving DecidableEq, Repr

/-- What the AHB reaches, and the AHB write buffer (R47, R70). `due` counts the words at the front of the buffer that a wait
for interrupt, or the clearing of W, causes to be written. -/
structure Ahb where
  mem : Memory
  err : List ErrRegion
  buf : List AhbEntry
  due : Nat
deriving DecidableEq, Repr

/-- A word of the instruction prefetch buffer, with its two marks (R72). -/
structure IpbEntry where
  addr : Word
  data : Word
  err : Bool
  bkpt : Bool
deriving DecidableEq, Repr

/-- An instruction that has been fetched (R48, R64): its address and code, the error mark, the external breakpoint mark,
the watchpoint units that matched the fetch (R333), and whether it came from ITCM bytes that nothing had written
(U-70-1). -/
structure Fetched where
  addr : Word
  code : Code
  err : Bool
  bkpt : Bool
  hit0 : Bool
  hit1 : Bool
  raw : Bool
deriving DecidableEq, Repr

/-- The instruction side: whether the next fetch is nonsequential, the settings in force until then (R131), the
prefetch buffer (R72) and the core pipeline (R76). -/
structure FetchState where
  nonseq : Bool
  itcmOn : Bool
  big : Bool
  ipbOff : Bool
  ipb : List IpbEntry
  pipe : List Fetched
deriving DecidableEq, Repr

/-- The three passes of the BIST algorithm (R345). -/
inductive BistPass
  | one | two | three
deriving DecidableEq, Repr

/-- Where a test stands: the pass and the byte offset of the next word (R346). -/
structure BistCursor where
  pass : BistPass
  addr : Nat
deriving DecidableEq, Repr

/-- A peek or a poke that the TCM has not answered (R348). -/
inductive BistAccess
  | peek (addr : Word)
  | poke (addr data : Word)
deriving DecidableEq, Repr

/-- One BIST engine (R38 to R40, R346). No cursor is the idle phase; `access` is a peek or poke that still waits for the
TCM. -/
structure Bist where
  size : BitVec 11
  enable : Bool
  pause : Bool
  running : Bool
  complete : Bool
  fail : Bool
  auto : Bool
  cursor : Option BistCursor
  addrReg : Word
  dataReg : Word
  failAddr : Word
  failData : Word
  failValid : Bool
  failErr : Bool
  peekData : Word
  access : Option BistAccess
deriving DecidableEq, Repr

/-- CP15 (R29 to R40). -/
structure Cp15 where
  lt : Bool
  v : Bool
  i : Bool
  b : Bool
  w : Bool
  d : Bool
  a : Bool
  procId : Word
  procIdWr : Bool
  iOrder : Bool
  dOrder : Bool
  ipbOff : Bool
  fm : Bool
  im : Bool
  bistI : Bist
  bistD : Bist
deriving DecidableEq, Repr

/-- CP14, the debug communications channel (R41 to R44). -/
structure Dcc where
  readData : Word
  writeData : Word
  r : Bool
  w : Bool
  dbgAbt : Bool
deriving DecidableEq, Repr

/-- A watchpoint unit of the EmbeddedICE-RT logic (R45, R335, R336): a breakpoint on fetches or a watchpoint on data
accesses. A bit whose mask bit is set takes no part in the comparison; a condition of one bit is masked by `none`. `size` is
compared with DMAS[1:0] of a data access, `itbit` with ITBIT of a fetch. With `chain` set, unit 0 matches only after unit 1
has (R336). -/
structure WatchUnit where
  enable : Bool
  onData : Bool
  addr : Word
  addrMask : Word
  value : Word
  valueMask : Word
  write : Option Bool
  privileged : Option Bool
  size : BitVec 2
  sizeMask : BitVec 2
  itbit : Option Bool
  ext : Option Bool
  chain : Bool
deriving DecidableEq, Repr

/-- A watched access (R333): none; made by the instruction now executing; made, and one more instruction is to
complete. -/
inductive Watch
  | none | hit | oneMore
deriving DecidableEq, Repr

/-- The debug state a program or debugger can observe (R45, R333 to R338). `pc` is what the debugger finds in the PC
when the core has entered debug state (R25). Of the Debug Control Register bits 4 and 1 are held, `monitor` and `request`. Bit 5,
EmbeddedICE-RT disable (N-61-1), is not: no rule gives it an effect or an action that writes it, and the comparators run whenever
DBGEN is HIGH (DESIGN CHOICE, entry 49). -/
structure Debug where
  inDebug : Bool
  fromThumb : Bool
  pc : Word
  monitor : Bool
  request : Bool
  unit0 : WatchUnit
  unit1 : WatchUnit
  watch : Watch
  scanOut : Word
deriving DecidableEq, Repr

/-- The input pins that matter (R359) and the implementation parameters of R10. Levels: true is HIGH. The last three say
that an interface no longer answers: xTCMWAIT or HREADY holds its accesses for ever (R357). -/
structure Pins where
  nfiq : Bool
  nirq : Bool
  fifofull : Bool
  etmen : Bool
  dbgen : Bool
  edbgrq : Bool
  dbgiebkpt : Bool
  dbgdewpt : Bool
  dbgext : BitVec 2
  vinithi : Bool
  initram : Bool
  itcmSize : BitVec 5
  dtcmSize : BitVec 5
  tapid : Word
  bistI : Bool
  bistD : Bool
  storePc12 : Bool
  itcmHung : Bool
  dtcmHung : Bool
  ahbHung : Bool
deriving DecidableEq, Repr

/-- What a coprocessor drives in one handshake cycle (R146, R148): ABSENT; WAIT; WAIT from now on; GO or LAST, with the
word on CPDIN. -/
inductive CpReply
  | absent
  | wait
  | waitForever
  | go (word : Word)
  | last (word : Word)
deriving DecidableEq, Repr

/-- What a coprocessor receives (R146, R151): an instruction on CPINSTR with the privilege that nCPTRANS shows, a word on
CPDOUT, or CPPASS LOW while it keeps an instruction waiting. -/
inductive CpInput
  | instr (word : Word) (privileged : Bool)
  | data (word : Word)
  | abandon
deriving DecidableEq, Repr

/-- An external coprocessor (R145): the number it answers to, the handshake cycles it will drive, and all that it has
received, the oldest first. -/
structure CpUnit where
  num : Reg
  replies : List CpReply
  log : List CpInput
deriving DecidableEq, Repr

/-- A coprocessor instruction that is kept waiting in Execute (R148), with the words it has moved so far. -/
structure CpWait where
  instr : Word
  moved : List Word
deriving DecidableEq, Repr

/-- The external coprocessor interface: the coprocessors attached, and the instruction that waits. -/
structure Cp where
  units : List CpUnit
  waiting : Option CpWait
deriving DecidableEq, Repr

/-- Output pins that are not levels of another field, as the last step left them.

* The instruction in Execute: its address, its word (CPINSTR) and its instruction set state (ETMIA, ETMID, ETMITBIT), whether
  there was one and whether it was executed (ETMINSTRVALID, DBGINSTREXEC); whether an instruction was fetched, and in sequence
  (ETMInMREQ, ETMISEQ; R366).
* The last data transfer: whether there was one, in sequence, its address, size, direction and data, and whether a Data Abort
  was taken (ETMDnMREQ, ETMDSEQ, ETMDA, ETMDMAS, ETMDnRW, ETMRDATA, ETMWDATA, ETMDABORT; R366).
* The coprocessor handshake (R146, R363): the cycles on CHSDE and CHSEX, CPPASS, CPLATECANCEL.
* DBGRNG of the two watchpoint units (R335). -/
structure Outputs where
  ia : Word
  instr : Word
  tbit : Bool
  instrValid : Bool
  instrExec : Bool
  fetchReq : Bool
  fetchSeq : Bool
  dataReq : Bool
  dataSeq : Bool
  dataAddr : Word
  dataSize : Size
  dataWrite : Bool
  readData : Word
  writeData : Word
  dataAbort : Bool
  chsDecode : BitVec 2
  chsExecute : BitVec 2
  cpPass : Bool
  cpLateCancel : Bool
  rng0 : Bool
  rng1 : Bool
deriving DecidableEq, Repr

/-- The registers of the ETM interface (R340, R366), held while ETMEN is LOW: copies of three levels, of the output pins and
of the Trace Process Identifier. -/
structure Etm where
  bigend : Bool
  hivecs : Bool
  dbgack : Bool
  pins : Outputs
  procId : Word
  procIdWr : Bool
deriving DecidableEq, Repr

/-- What an agent other than the core does between two accesses of one instruction (R60, R74). -/
inductive BusEvent
  /-- a TCM write buffer drains its oldest entry (R66) -/
  | drainTcm (side : Side)
  /-- the AHB write buffer writes its oldest word (R70) -/
  | drainAhb
  /-- another AHB master writes a byte (R74) -/
  | ahbWrite (addr : Word) (b : Byte)
  /-- DMA writes a byte of a TCM (R74) -/
  | tcmWrite (side : Side) (offset : Nat) (b : Byte)
deriving DecidableEq, Repr

/-- What an agent other than the core does between two instructions (R11). With DBGEN LOW the debugger's events do
nothing (D21). -/
inductive EnvEvent
  /-- the interrupt lines take these levels (R321) -/
  | lines (nfiq nirq : Bool)
  /-- the ETM drives FIFOFULL (R341) -/
  | fifofull (level : Bool)
  /-- EDBGRQ (R333) -/
  | edbgrq (level : Bool)
  /-- DBGIEBKPT (R333) -/
  | dbgiebkpt (level : Bool)
  /-- DBGDEWPT (R333) -/
  | dbgdewpt (level : Bool)
  /-- DBGEXT[1:0] (R335) -/
  | dbgext (levels : BitVec 2)
  /-- a buffer drains, or another master or DMA writes a byte (R66, R70, R74) -/
  | bus (e : BusEvent)
  /-- what happens between the accesses of the next instructions that make several, one batch before each further
  access (R60) -/
  | between (batches : List (List BusEvent))
  /-- from now on these interfaces answer, or hold their accesses for ever (R357) -/
  | hung (itcm dtcm ahb : Bool)
  /-- ETMEN (R340) -/
  | etmen (level : Bool)
  /-- the prefetch buffer reads one more word (R72) -/
  | prefetch
  /-- the core fetches the instruction behind those it holds (R76) -/
  | pipelineFetch
  /-- a BIST engine works on one word (R345) -/
  | bistTick (side : Side)
  /-- an external coprocessor drives this in its next handshake cycle (R148) -/
  | cpReply (num : Reg) (r : CpReply)
  /-- the debugger writes the Data Read Register (R337) -/
  | dccSend (v : Word)
  /-- the debugger reads the Data Write Register (R337) -/
  | dccReceive
  /-- an access through scan chain 15: bit [38], bits [37:32], bits [31:0] (R338) -/
  | scan15 (write : Bool) (addr : BitVec 6) (v : Word)
  /-- the debugger programs a watchpoint unit (R335) -/
  | setUnit (second : Bool) (u : WatchUnit)
  /-- the debugger writes bits 4 and 1 of the Debug Control Register (R45); bit 5 is left out (DESIGN CHOICE, entry 49) -/
  | setDebugControl (monitor request : Bool)
  /-- the debugger restarts the core (R330) -/
  | restart
  /-- SUB PC, PC, #n is scanned in and the core restarted (R25) -/
  | restartBack (n : BitVec 12)
  /-- in debug state the debugger writes a general register (R334) -/
  | debugReg (index : Fin 30) (v : Word)
  /-- in debug state the debugger sets the address to go on from (R334) -/
  | debugPc (v : Word)
  /-- in debug state the debugger writes the CPSR (R334) -/
  | debugCpsr (v : Word)
  /-- in debug state the debugger writes an SPSR (R334) -/
  | debugSpsr (index : Fin 5) (v : Word)
  /-- in debug state the debugger inserts a load into a general register (R334) -/
  | debugLoad (index : Fin 30) (size : Size) (addr : Word)
  /-- in debug state the debugger inserts a store (R334) -/
  | debugStore (size : Size) (addr v : Word)
  /-- DBGnTRST resets the EmbeddedICE-RT state (R350) -/
  | dbgTrst
  /-- HRESETn is driven LOW and released (R350) -/
  | reset
deriving DecidableEq, Repr

/-! ## The state -/

/-- What a Thumb BL or BLX prefix has left for its suffix (R302): the suffix's address and the value in R14. The model's own:
it tells the suffix of a pair from one that is executed alone (R117; DEDUCED, entry 24). -/
structure BlPrefix where
  next : Word
  value : Word
deriving DecidableEq, Repr

/-- The machine. `regs` holds the 30 general registers other than R15: R0-R7, R8-R12, R8_fiq-R12_fiq, then R13 and R14
of usr, fiq, irq, svc, abt, und. `spsr` holds those of fiq, irq, svc, abt, und. `pc` is the address of the next
instruction to execute. `fiqServed` and `irqServed` say that the current mode was entered by that interrupt (R342), `chain` is
the latch that chains watchpoint unit 0 to unit 1 (R336). `prefixes` holds the Thumb BL prefixes that no suffix has
followed yet. -/
structure State where
  regs : Vector Word 30
  pc : Word
  cpsr : Word
  spsr : Vector Word 5
  cp15 : Cp15
  dcc : Dcc
  dbg : Debug
  itcm : Tcm
  dtcm : Tcm
  ahb : Ahb
  fetch : FetchState
  standby : Bool
  pins : Pins
  cp : Cp
  userXfer : Bool
  fiqServed : Bool
  irqServed : Bool
  chain : Bool
  prefixes : List BlPrefix
  out : Outputs
  etm : Etm
  freeCtr : Nat
  between : List (List BusEvent)
  env : List (List EnvEvent)
deriving DecidableEq, Repr

/-! ## How a step can stop -/

/-- The faults that stop the machine. The processor has no halting fault: everything the spec calls an exception is
taken and gives a next state. -/
inductive Fault
  /-- An access that never completes (R357: "hangs the core; the model's step relation has no successor"). Raised by every
  data access, fetch, forced drain, peek and poke that waits for an interface which holds it for ever, and by a step of a
  coprocessor instruction that busy-waits for ever while nothing more is to happen. Safe. -/
  | accessNeverCompletes
deriving DecidableEq, Repr

/-- The cases in which the spec makes no claim (D3, treatment `refuse`). Each is safe: the model stops where the
hardware does something the spec does not say. -/
inductive Refusal
  /-- exec has no meaning for the instruction yet -/
  | notModelled (mnemonic : String)
  /-- unallocated encodings (R113 kind 3, R116, U-G15): the UNALLOCATED rows -/
  | unallocated
  /-- a should-be-zero or should-be-one field holds another value (U-G1): every instruction with such a field -/
  | reservedField
  /-- R15 where the instruction does not allow it (U-G2, U-G4, U-G7, U-G10, U-G14) -/
  | r15Operand
  /-- registers that must differ are the same (U-G4, U-G7, U-G8, U-G10, U-G14) -/
  | registerClash
  /-- an SPSR is needed in User or System mode (U-G3, U-G6, U-G11) -/
  | noSpsr
  /-- a mode number that is not in R23 would enter the CPSR (U-G12) -/
  | illegalMode
  /-- an MSR operand with a bit of 0x07FFFF00 set (U-G6, D6) -/
  | psrReservedBits
  /-- a privileged MSR to the CPSR with the T bit set in the operand (U-G6) -/
  | msrTBit
  /-- a jump to a target whose low bits are not those of an instruction (U-G5, U-G9, U-G13, U-G16) -/
  | branchTarget
  /-- a branch or sequential execution past an end of the address space (R24) -/
  | addressWrap
  /-- an unaligned halfword or doubleword access with A = 0 (U-G8) -/
  | unaligned
  /-- P = 0 with W = 1 in a halfword or doubleword form (R107) -/
  | badIndexing
  /-- a register list that is empty (U-G11, U-G13) -/
  | emptyList
  /-- write-back with the base in an LDM list (U-G11) -/
  | baseInList
  /-- write-back in a user-bank LDM or STM, or one in User or System mode (U-G11) -/
  | userTransfer
  /-- a banked register used directly after a user-bank LDM or STM (U-G11) -/
  | bankedAfterUserTransfer
  /-- LDRD or STRD with an odd first register (D14) -/
  | oddRegister
  /-- BKPT with a condition other than AL (R105, R214) -/
  | conditionalBkpt
  /-- a CP15 access outside the table of R123 (R125, U-T1, U-T2, U-T3) -/
  | cp15Unlisted
  /-- a CP14 access outside the table of R162 (R168) -/
  | cp14Unlisted
  /-- a CP14 access in User mode (D5) -/
  | cp14User
  /-- CDP, LDC, STC, MCRR, MRRC or a cond = 1111 form to p15 or p14 (D15, R126, R168) -/
  | internalCoprocessor
  /-- a one written to a reserved bit of a CP15 test or configuration register (U-T6) -/
  | cp15ReservedBits
  /-- a TCM of size 0 enabled (D9) -/
  | tcmAbsent
  /-- a TCM disabled with data in its write buffer (R68) -/
  | tcmBufferNotEmpty
  /-- a TCM size on the pins above b10001 (U-T16) -/
  | tcmSizePins
  /-- a BIST operation outside the rules of use (R130, R139, R345) -/
  | bistRules
  /-- execution from an ITCM byte that nothing has written (U-70-1) -/
  | itcmUninitialised
  /-- EDBGRQ or the debug request bit in monitor mode (U-61-1) -/
  | monitorRequest
  /-- an external or data-dependent breakpoint or watchpoint in monitor mode (U-T11) -/
  | monitorUnsupported
  /-- sequential execution across a change of a fetch setting that changes the instructions (D16) -/
  | fetchSettingChange
  /-- the debugger does something the spec does not describe (R338, N-61-2, N-61-6) -/
  | debuggerUndescribed
deriving DecidableEq, Repr

/-- What one step or one meaning answers. -/
abbrev Result := Host.Outcome State Fault Refusal

/-- Why an operation that an instruction is built from has no result. -/
inductive Stop
  | fault (f : Fault)
  | refuse (r : Refusal)
deriving DecidableEq, Repr

/-- A stop as the answer of an instruction or a step. -/
def Stop.result : Stop → Result
  | .fault f => .fault f
  | .refuse r => .refused r

/-! ## Reset -/

/-- A BIST engine after reset: control and status bits 0 (R38); the registers DESIGN CHOICE 0 (entry 2). -/
def Bist.reset : Bist :=
  { size := 0, enable := false, pause := false, running := false, complete := false, fail := false, auto := false
    cursor := none, addrReg := 0, dataReg := 0, failAddr := 0, failData := 0, failValid := false, failErr := false
    peekData := 0, access := none }

/-- A watchpoint unit that does nothing: DESIGN CHOICE (entry 4). -/
def WatchUnit.off : WatchUnit :=
  { enable := false, onData := false, addr := 0, addrMask := 0, value := 0, valueMask := 0, write := none
    privileged := none, size := 0, sizeMask := 0b11, itbit := none, ext := none, chain := false }

/-- Pins and parameters as the model's reset state has them: DESIGN CHOICE (entry 6). The interrupt lines are HIGH
(no request), there is no debugger and no ETM, both TCMs are 16KB and disabled. -/
def Pins.reset : Pins :=
  { nfiq := true, nirq := true, fifofull := false, etmen := false, dbgen := false, edbgrq := false
    dbgiebkpt := false, dbgdewpt := false, dbgext := 0, vinithi := false, initram := false
    itcmSize := 0b00101, dtcmSize := 0b00101, tapid := 0x25966477, bistI := true, bistD := true, storePc12 := true
    itcmHung := false, dtcmHung := false, ahbHung := false }

/-- CP15 after reset (R352) with these pins; what the spec does not state is DESIGN CHOICE 0 (entry 2). -/
def Cp15.reset (p : Pins) : Cp15 :=
  { lt := false, v := p.vinithi, i := p.initram, b := false, w := false, d := p.initram, a := false
    procId := 0, procIdWr := false, iOrder := false, dOrder := false, ipbOff := false, fm := true, im := false
    bistI := .reset, bistD := .reset }

/-- CP14 after reset: D18, the data registers DESIGN CHOICE 0 (entry 3). -/
def Dcc.reset : Dcc := { readData := 0, writeData := 0, r := false, w := false, dbgAbt := false }

/-- Debug logic with nothing programmed: DESIGN CHOICE (entry 4); not in debug state (R352). -/
def Debug.reset : Debug :=
  { inDebug := false, fromThumb := false, pc := 0, monitor := false, request := false, unit0 := .off, unit1 := .off
    watch := .none, scanOut := 0 }

/-- A TCM at power-up: nothing written, xTCMERROR tied LOW (R65), an empty buffer (D18). -/
def Tcm.reset : Tcm := { mem := [], init := [], err := [], buf := [], hold := false }

/-- The AHB at power-up: nothing written, an empty buffer (D18). That no region answers ERROR is a DESIGN CHOICE (entry 6): it is
the platform's parameter (R10), and the spec gives it no value. -/
def Ahb.reset : Ahb := { mem := [], err := [], buf := [], due := 0 }

/-- The instruction side after reset: empty (D18), the next fetch nonsequential, the settings as CP15 has them. -/
def FetchState.reset (c : Cp15) : FetchState :=
  { nonseq := true, itcmOn := c.i, big := c.b, ipbOff := c.ipbOff, ipb := [], pipe := [] }

/-- No coprocessor is attached and none waits: DESIGN CHOICE (entry 27). -/
def Cp.reset : Cp := { units := [], waiting := none }

/-- Outputs of a core that has executed nothing: DESIGN CHOICE (entry 42); with no coprocessor attached the handshake is tied
to ABSENT (R145). -/
def Outputs.reset : Outputs :=
  { ia := 0, instr := 0, tbit := false, instrValid := false, instrExec := false, fetchReq := false, fetchSeq := false
    dataReq := false, dataSeq := false, dataAddr := 0, dataSize := .byte, dataWrite := false, readData := 0
    writeData := 0, dataAbort := false, chsDecode := 0b10, chsExecute := 0b10, cpPass := false, cpLateCancel := false
    rng0 := false, rng1 := false }

/-- The ETM interface registers at power-up: DESIGN CHOICE (entry 42). -/
def Etm.reset : Etm :=
  { bigend := false, hivecs := false, dbgack := false, pins := .reset, procId := 0, procIdWr := false }

/-- The machine right after reset (R351, R352): Supervisor mode, ARM state, IRQ and FIQ disabled, pc at the reset
vector that VINITHI selects. Registers and flags the spec leaves undefined hold 0: DESIGN CHOICE (entry 1). -/
def State.reset : State :=
  { regs := Vector.replicate 30 0
    pc := if Pins.reset.vinithi then 0xFFFF0000 else 0
    cpsr := 0xD3
    spsr := Vector.replicate 5 0
    cp15 := .reset .reset
    dcc := .reset
    dbg := .reset
    itcm := .reset
    dtcm := .reset
    ahb := .reset
    fetch := .reset (.reset .reset)
    standby := false
    pins := .reset
    cp := .reset
    userXfer := false
    fiqServed := false
    irqServed := false
    chain := false
    prefixes := []
    out := .reset
    etm := .reset
    freeCtr := 0
    between := []
    env := [] }

end Sys2Proof.Machine
end

