-- ==== Sys2Proof/Machine/Memory.lean ====
section
/-! DEFINITION. Sparse memories and the two kinds of write buffer, without the core: spec/20_memory.md rules R50, R54,
R65 to R71. All three memories are addressed here by word number; byte lane k of word w is the byte at 4 w + k, and
lane 0 is the least significant byte of the word. -/

namespace Sys2Proof.Machine

/-! ## Sparse memory -/

/-- What a byte that nothing has written reads as. DESIGN CHOICE (entry 5): the spec gives RAM no contents. -/
def Memory.default : Byte := 0

/-- The canonical form: addresses strictly rising, and no entry that reads as an unlisted address does. -/
abbrev Memory.wf (m : Memory) : Prop := m.Pairwise (·.1 < ·.1) ∧ ∀ c ∈ m, c.2 ≠ Memory.default

/-- The byte at an address. -/
def Memory.read : Memory → Nat → Byte
  | [], _ => Memory.default
  | (k, b) :: m, a => if k = a then b else Memory.read m a

/-- Write a byte, keeping the canonical form: an entry that would read as the default is left out. -/
def Memory.write : Memory → Nat → Byte → Memory
  | [], a, b => if b = Memory.default then [] else [(a, b)]
  | (k, c) :: m, a, b =>
    if a < k then if b = Memory.default then (k, c) :: m else (a, b) :: (k, c) :: m
    else if a = k then if b = Memory.default then m else (a, b) :: m
    else (k, c) :: Memory.write m a b

/-- Byte lane `k` of a word. -/
def laneByte (v : Word) (k : Nat) : Byte := v.extractLsb' (8 * k) 8

/-- The word made of four lanes, lane 0 last. -/
def wordOfLanes (b3 b2 b1 b0 : Byte) : Word := b3 ++ b2 ++ b1 ++ b0

/-- The 32-bit word number `w` of a memory (R54: a word access is the same in both byte orders). -/
def Memory.readWord (m : Memory) (w : Nat) : Word :=
  wordOfLanes (m.read (4 * w + 3)) (m.read (4 * w + 2)) (m.read (4 * w + 1)) (m.read (4 * w))

/-- Write one byte lane of a word where its write enable is set (R80). -/
def Memory.writeLane (m : Memory) (w : Nat) (lanes : BitVec 4) (v : Word) (k : Nat) : Memory :=
  if lanes.getLsbD k then m.write (4 * w + k) (laneByte v k) else m

/-- Write the enabled byte lanes of a word (R80). -/
def Memory.writeWord (m : Memory) (w : Nat) (lanes : BitVec 4) (v : Word) : Memory :=
  (((m.writeLane w lanes v 0).writeLane w lanes v 1).writeLane w lanes v 2).writeLane w lanes v 3

/-! ## Byte lanes (R54, R80, R89) -/

/-- How many bytes an access moves. -/
def Size.bytes : Size → Nat
  | .byte => 1 | .half => 2 | .word => 4

/-- The least significant byte lane that an aligned access uses, by the byte order (R54). -/
def laneStart (big : Bool) (size : Size) (a : Word) : Nat :=
  match size with
  | .word => 0
  | .half => if a.getLsbD 1 = big then 0 else 2
  | .byte => if big then 3 - (a.extractLsb' 0 2).toNat else (a.extractLsb' 0 2).toNat

/-- The byte lanes of an access that starts at lane `k`. -/
def laneMask (size : Size) (k : Nat) : BitVec 4 :=
  match size with
  | .word => 0b1111
  | .half => 0b0011#4 <<< k
  | .byte => 0b0001#4 <<< k

/-- The low byte, halfword or word of a value, zero-extended. -/
def Size.trunc (size : Size) (v : Word) : Word :=
  match size with
  | .word => v
  | .half => (v.extractLsb' 0 16).setWidth 32
  | .byte => (v.extractLsb' 0 8).setWidth 32

/-- The value of the lanes of an access in a word. -/
def takeLanes (big : Bool) (size : Size) (a v : Word) : Word :=
  size.trunc (v >>> (8 * laneStart big size a))

/-- A value placed on the lanes of an access. -/
def putLanes (big : Bool) (size : Size) (a v : Word) : Word :=
  size.trunc v <<< (8 * laneStart big size a)

/-- The write enables of an access (R80). -/
def accessLanes (big : Bool) (size : Size) (a : Word) : BitVec 4 := laneMask size (laneStart big size a)

/-- The number of the word an address lies in. -/
def wordNumber (a : Word) : Nat := a.toNat / 4

/-! ## A TCM and its write buffer (R50, R65, R66) -/

/-- The size in bytes that a value of the size pins stands for (R32). -/
def tcmBytes (v : BitVec 5) : Nat := if v = 0 then 0 else 2 ^ (v.toNat + 9)

/-- The values of the size pins that the spec lists (R32). -/
def tcmSizeLegal (v : BitVec 5) : Bool := decide (v.toNat ≤ 17)

/-- Put a number into a rising list. -/
def insertNat : List Nat → Nat → List Nat
  | [], a => [a]
  | k :: l, a => if a < k then a :: k :: l else if a = k then k :: l else k :: insertNat l a

/-- Mark the enabled lanes of a word as written (R53, U-70-1). -/
def markLanes (l : List Nat) (w : Nat) (lanes : BitVec 4) : List Nat :=
  [0, 1, 2, 3].foldl (fun l k => if lanes.getLsbD k then insertNat l (4 * w + k) else l) l

/-- Write the memory behind a TCM interface. -/
def Tcm.commit (t : Tcm) (w : Nat) (lanes : BitVec 4) (v : Word) : Tcm :=
  { t with mem := t.mem.writeWord w lanes v, init := markLanes t.init w lanes }

/-- The oldest entry of the write buffer goes into the memory (R66: entries leave in the order they entered). An empty
buffer holds nothing up any longer (R37). -/
def Tcm.drainOne (t : Tcm) : Tcm :=
  match t.buf with
  | [] => { t with hold := false }
  | e :: es => { t with buf := es, hold := t.hold && !es.isEmpty }.commit e.word e.lanes e.data

/-- Every entry of a list goes into the memory. -/
def Tcm.commitAll (t : Tcm) : List TcmEntry → Tcm
  | [] => t
  | e :: es => (t.commit e.word e.lanes e.data).commitAll es

/-- The write buffer drains until it is empty. -/
def Tcm.drain (t : Tcm) : Tcm := { t with buf := [], hold := false }.commitAll t.buf

/-- A write access: into the buffer, which is two entries deep; a third write forces the oldest out (R66). -/
def Tcm.push (t : Tcm) (e : TcmEntry) : Tcm :=
  let t := if 2 ≤ t.buf.length then t.drainOne else t
  { t with buf := t.buf ++ [e] }

/-- The order bit is set over a buffer with data: the next access waits until the buffer is empty (R37). Writing 1 over an
order bit that is set already starts no such wait, and clearing the bit before the buffer is empty does not end one: the spec
says neither (DESIGN CHOICE, entry 46). -/
def Tcm.setHold (t : Tcm) (newOrder oldOrder : Bool) : Tcm :=
  { t with hold := t.hold || (newOrder && !oldOrder && !t.buf.isEmpty) }

/-- What an access finds, where it waits for the buffer (R37, R67) or not. -/
def Tcm.waited (t : Tcm) (order : Bool) : Tcm := if t.hold || order then t.drain else t

/-- A data read: byte by byte the newest buffered byte, else the memory's (R66). Draining a copy gives just that. -/
def Tcm.readWord (t : Tcm) (w : Nat) : Word := t.drain.mem.readWord w

/-- The lanes of a word that the buffer holds. -/
def Tcm.bufferedLanes (t : Tcm) (w : Nat) : BitVec 4 :=
  t.buf.foldl (fun l e => if e.word = w then l ||| e.lanes else l) 0

/-- A data read needs the memory: not all of it comes from the write buffer (R66). -/
def Tcm.readsMemory (t : Tcm) (w : Nat) (lanes : BitVec 4) : Bool := decide (lanes &&& ~~~(t.bufferedLanes w) ≠ 0)

/-- xTCMERROR on a data read (R65): sampled unless all the data comes from the write buffer. -/
def Tcm.readError (t : Tcm) (w : Nat) (lanes : BitVec 4) : Bool := t.err.contains w && t.readsMemory w lanes

/-! ## The AHB and its write buffer (R70, R71) -/

/-- The kinds of AHB transfer a region may answer with ERROR. -/
inductive BusUse
  | read | write | fetch
deriving DecidableEq, Repr

/-- A region answers ERROR to this transfer. -/
def ErrRegion.answers (r : ErrRegion) (use : BusUse) (user : Bool) (a : Word) : Bool :=
  decide (r.base ≤ a.toNat) && decide (a.toNat < r.base + r.size) && (!r.userOnly || user) &&
    (match use with | .read => r.onRead | .write => r.onWrite | .fetch => r.onFetch)

/-- The AHB answers ERROR (R88). -/
def Ahb.error (h : Ahb) (use : BusUse) (user : Bool) (a : Word) : Bool := h.err.any (·.answers use user a)

/-- A write transfer: an address that answers ERROR is not written. -/
def Ahb.writeWord (h : Ahb) (user : Bool) (a : Word) (lanes : BitVec 4) (v : Word) : Ahb :=
  if h.error .write user a then h else { h with mem := h.mem.writeWord (wordNumber a) lanes v }

/-- The oldest word of the buffer is written; an ERROR answer is lost (R71). -/
def Ahb.drainOne (h : Ahb) : Ahb :=
  match h.buf with
  | [] => { h with due := 0 }
  | e :: es =>
    match e.data with
    | [] => { h with buf := es }
    | [v] => { h with buf := es, due := h.due - 1 }.writeWord e.user e.addr e.lanes v
    | v :: vs =>
      { h with buf := { e with addr := e.addr + 4, data := vs } :: es, due := h.due - 1 }.writeWord e.user e.addr e.lanes v

/-- The words of one entry are written, in order. -/
def Ahb.writeWords (h : Ahb) (user : Bool) (lanes : BitVec 4) : Word → List Word → Ahb
  | _, [] => h
  | a, v :: vs => (h.writeWord user a lanes v).writeWords user lanes (a + 4) vs

/-- The entries of a list are written, in order. -/
def Ahb.writeEntries (h : Ahb) : List AhbEntry → Ahb
  | [] => h
  | e :: es => (h.writeWords e.user e.lanes e.addr e.data).writeEntries es

/-- The buffer is written until it is empty (R70). -/
def Ahb.drain (h : Ahb) : Ahb := { h with buf := [], due := 0 }.writeEntries h.buf

/-- How many data words the buffer holds. -/
def Ahb.bufWords (h : Ahb) : Nat := (h.buf.map (·.data.length)).sum

/-- All the data in the buffer is to be written (R70). -/
def Ahb.flush (h : Ahb) : Ahb := { h with due := h.bufWords }

/-- There is room for a further data word, and for a new address entry where one is needed (R70: four addresses, eight
words). -/
def Ahb.hasRoom (h : Ahb) (newEntry : Bool) : Bool :=
  decide (h.bufWords < 8) && (!newEntry || decide (h.buf.length < 4))

/-- The core waits for room: the oldest words are written until a new address entry, or a further data word, fits. -/
def Ahb.makeRoom (newEntry : Bool) : Nat → Ahb → Ahb
  | 0, h => h
  | n + 1, h =>
    if h.hasRoom newEntry then h
    else Ahb.makeRoom newEntry n h.drainOne

/-- A buffered store gets an address entry of its own (R70). -/
def Ahb.push (h : Ahb) (e : AhbEntry) : Ahb :=
  let h := Ahb.makeRoom true 9 h
  { h with buf := h.buf ++ [e] }

/-- Add a data word to the last address entry. -/
def appendLast : List AhbEntry → Word → List AhbEntry
  | [], _ => []
  | [e], v => [{ e with data := e.data ++ [v] }]
  | e :: es, v => e :: appendLast es v

/-- A further word continues the last address entry: it follows its data, on the same lanes, with the same marks. -/
def Ahb.continues (h : Ahb) (e : AhbEntry) : Bool :=
  match h.buf.getLast? with
  | none => false
  | some l =>
    decide (l.addr + BitVec.ofNat 32 (4 * l.data.length) = e.addr) && decide (l.lanes = e.lanes) &&
      decide (l.size = e.size) && (l.user == e.user)

/-- A further word of a store multiple (R70): it uses a data entry only, if the address entry is still there. -/
def Ahb.pushSeq (h : Ahb) (e : AhbEntry) : Ahb :=
  let h' := Ahb.makeRoom false 9 h
  if h'.continues e then
    match e.data with
    | [v] => { h' with buf := appendLast h'.buf v }
    | _ => h.push e
  else h.push e

end Sys2Proof.Machine
end

