-- ==== Sys2Proof/Machine/Ops.lean ====
section
/-! DEFINITION. The named operations over the core's registers: status registers (R26, R27), banked registers (R22),
the program counter (R24), free values (D3), taking an exception (R312) and returning from one (R325). -/

namespace Sys2Proof.Machine

/-! ## Status registers (R26) -/

/-- N, bit 31. -/
def Psr.n (p : Word) : Bool := p.getLsbD 31
/-- Z, bit 30. -/
def Psr.z (p : Word) : Bool := p.getLsbD 30
/-- C, bit 29. -/
def Psr.c (p : Word) : Bool := p.getLsbD 29
/-- V, bit 28. -/
def Psr.v (p : Word) : Bool := p.getLsbD 28
/-- Q, bit 27. -/
def Psr.q (p : Word) : Bool := p.getLsbD 27
/-- I, bit 7: 1 disables IRQ. -/
def Psr.i (p : Word) : Bool := p.getLsbD 7
/-- F, bit 6: 1 disables FIQ. -/
def Psr.f (p : Word) : Bool := p.getLsbD 6
/-- T, bit 5: 1 is Thumb state. -/
def Psr.t (p : Word) : Bool := p.getLsbD 5
/-- M, bits [4:0]. -/
def Psr.m (p : Word) : BitVec 5 := p.extractLsb' 0 5

/-- Replace N, Z, C, V. -/
def Psr.setNzcv (p : Word) (n z c v : Bool) : Word := nib n z c v ++ p.extractLsb' 0 28
/-- Replace N and Z. -/
def Psr.setNz (p : Word) (n z : Bool) : Word := BitVec.ofBool n ++ BitVec.ofBool z ++ p.extractLsb' 0 30
/-- Set Q if the argument says so; Q is sticky (R26). -/
def Psr.orQ (p : Word) (q : Bool) : Word :=
  p.extractLsb' 28 4 ++ BitVec.ofBool (p.getLsbD 27 || q) ++ p.extractLsb' 0 27
/-- Replace T. -/
def Psr.setT (p : Word) (t : Bool) : Word := p.extractLsb' 6 26 ++ BitVec.ofBool t ++ p.extractLsb' 0 5

/-- The bits [26:8], which the model holds at zero (D6). -/
def Psr.reserved (p : Word) : BitVec 19 := p.extractLsb' 8 19

/-- The mode numbers of R23. -/
def Mode.bits : Mode → BitVec 5
  | .usr => 0b10000 | .fiq => 0b10001 | .irq => 0b10010 | .svc => 0b10011
  | .abt => 0b10111 | .und => 0b11011 | .sys => 0b11111

/-- The mode of a number, none for an illegal one (R23). -/
def Mode.ofBits (m : BitVec 5) : Option Mode :=
  if m = 0b10000 then some .usr
  else if m = 0b10001 then some .fiq
  else if m = 0b10010 then some .irq
  else if m = 0b10011 then some .svc
  else if m = 0b10111 then some .abt
  else if m = 0b11011 then some .und
  else if m = 0b11111 then some .sys
  else none

/-- The current mode. The CPSR never holds an illegal number in a run; such a state counts as User mode. -/
def State.mode (s : State) : Mode := (Mode.ofBits (Psr.m s.cpsr)).getD .usr

/-- InAPrivilegedMode() (R15 of 00_scope.md, R327). -/
def State.privileged (s : State) : Bool := decide (s.mode ≠ .usr)

/-- Thumb state. -/
def State.thumb (s : State) : Bool := Psr.t s.cpsr

/-- Where State keeps a mode's SPSR; User and System modes have none (R22). -/
def Mode.spsrIndex : Mode → Option (Fin 5)
  | .fiq => some 0 | .irq => some 1 | .svc => some 2 | .abt => some 3 | .und => some 4
  | .usr => none | .sys => none

/-- The SPSR of the current mode, none in User and System mode (R27). -/
def State.spsr? (s : State) : Option Word := s.mode.spsrIndex.map (s.spsr[·])

/-- Replace the CPSR. -/
def State.setCpsr (s : State) (p : Word) : State := { s with cpsr := p }

/-- Write the SPSR of a mode; nothing where the mode has none. -/
def State.setSpsr (s : State) (m : Mode) (p : Word) : State :=
  match m.spsrIndex with
  | some k => { s with spsr := s.spsr.set k p }
  | none => s

/-! ## Instruction words -/

/-- The word of an instruction, a Thumb one zero-extended in its low half, as ETMID and a breakpoint on data see it too (DESIGN
CHOICE, entry 42: the spec shows no Thumb instruction there). -/
def Code.word : Code → Word
  | .arm w => w
  | .thumb h => h.setWidth 32

/-! ## General registers (R22, R24) -/

/-- The number of a mode's bank of R13 and R14. -/
def Mode.bank : Mode → Nat
  | .usr => 0 | .sys => 0 | .fiq => 1 | .irq => 2 | .svc => 3 | .abt => 4 | .und => 5

/-- The physical register that a name other than R15 selects in a mode (the table of R22). -/
def physIndex (m : Mode) (r : Reg) : Fin 30 :=
  let n := r.toNat
  if n < 8 then Fin.ofNat 30 n
  else if n < 13 then Fin.ofNat 30 (if m = .fiq then n + 5 else n)
  else Fin.ofNat 30 (18 + 2 * m.bank + (n - 13))

/-- A register name in the bank of a given mode; not for R15. -/
def State.bankReg (s : State) (m : Mode) (r : Reg) : Word := s.regs[physIndex m r]

/-- Write a register name in the bank of a given mode; not for R15. -/
def State.setBankReg (s : State) (m : Mode) (r : Reg) (v : Word) : State :=
  { s with regs := s.regs.set (physIndex m r) v }

/-- The length of an instruction: 2 in Thumb state, else 4 (R98). -/
def State.len (s : State) : Word := if s.thumb then 2 else 4

/-- What a read of R15 gives while the instruction at `pc` executes (R24). -/
def State.readPc (s : State) : Word := s.pc + (if s.thumb then 4 else 8)

/-- R[r] as an operand (R15 of 00_scope.md). -/
def State.reg (s : State) (r : Reg) : Word := if r = 15 then s.readPc else s.bankReg s.mode r

/-- R[r] as a store sees it: R15 gives cur + STORE_PC_OFFSET (R221, R240, D19). -/
def State.storeReg (s : State) (r : Reg) : Word :=
  if r = 15 then s.pc + (if s.pins.storePc12 then 12 else 8) else s.bankReg s.mode r

/-- R[r] <- v for a register other than R15. -/
def State.setReg (s : State) (r : Reg) (v : Word) : State := s.setBankReg s.mode r v

/-- R[r] <- v if there is a v. -/
def State.setReg? (s : State) (r : Reg) : Option Word → State
  | none => s
  | some v => s.setReg r v

/-- Registers R13 and R14 by name (R22). -/
abbrev spReg : Reg := 13
/-- The link register. -/
abbrev lrReg : Reg := 14

/-! ## Going on (R24) -/

/-- The address after the current instruction. -/
def State.nextPc (s : State) : Word := s.pc + s.len

/-- The next instruction in sequence (R24). -/
def State.advance (s : State) : State := { s with pc := s.nextPc }

/-- The instruction is done and wrote no R15. -/
def State.done (s : State) : Result := .next s.advance

/-- pc <- target: the fetch from there is nonsequential (R15 of 00_scope.md, R72). -/
def State.jump (s : State) (target : Word) : State :=
  { s with pc := target, fetch := { s.fetch with nonseq := true } }

/-- A value written to R15 by an ARM instruction that does not interwork: bits [1:0] must be 00 (R24). -/
def writePcArm (v : Word) (s : State) : Result :=
  if v.extractLsb' 0 2 = 0 then .next (s.jump v) else .refused .branchTarget

/-- A value written to R15 by a Thumb instruction that does not interwork: bit 0 is ignored (R24). -/
def writePcThumb (v : Word) (s : State) : Result := .next (s.jump (v &&& ~~~1))

/-- An interworking jump: bit 0 selects Thumb state; the target must be aligned for the state chosen (R210, U-G5). -/
def jumpExchange (v : Word) (s : State) : Result :=
  if v.getLsbD 0 then .next ((s.setCpsr (Psr.setT s.cpsr true)).jump (v &&& ~~~1))
  else if v.getLsbD 1 then .refused .branchTarget
  else .next ((s.setCpsr (Psr.setT s.cpsr false)).jump v)

/-- A branch whose target is sought: beyond an end of the address space it is UNPREDICTABLE (R24, R205 (e)). -/
def jumpTo (target : Option Word) (k : Word → State) : Result :=
  match target with
  | none => .refused .addressWrap
  | some t => .next (k t)

/-- A read of R15 that wraps past the top of the address space (R205 (e)). -/
def State.pcWraps (s : State) : Bool := decide (2 ^ 32 ≤ s.pc.toNat + (if s.thumb then 4 else 8))

/-- A target `offset` bytes from an address (R205 (e), R24): beyond either end of the address space there is none. -/
def relativeTarget (base : Word) (offset : Int) : Option Word :=
  let x : Int := base.toNat + offset
  if 0 ≤ x ∧ x < 2 ^ 32 then some (BitVec.ofInt 32 x) else none

/-! ## Free values (D3) -/

/-- A word the spec leaves open; each one taken is a new one. -/
def State.takeWord (s : State) : Word × State :=
  (Config.freeWord s.freeCtr, { s with freeCtr := s.freeCtr + 1 })

/-- A choice the spec leaves open. -/
def State.takeBool (s : State) : Bool × State :=
  (Config.freeBool s.freeCtr, { s with freeCtr := s.freeCtr + 1 })

/-- A value of which the spec states the bits that `mask` has set. -/
def partlyFree (v mask free : Word) : Word := (v &&& mask) ||| (free &&& ~~~mask)

/-! ## Taking an exception (R309 to R313) -/

/-- The exceptions that go through the entry sequence with a link value; Reset stands apart (R351). -/
inductive Exc
  | undefined | swi | prefetchAbort | dataAbort | irq | fiq
deriving DecidableEq, Repr

/-- The mode entered (R309). -/
def Exc.mode : Exc → Mode
  | .undefined => .und | .swi => .svc | .prefetchAbort => .abt | .dataAbort => .abt | .irq => .irq | .fiq => .fiq

/-- The vector offset (R309). -/
def Exc.offset : Exc → Word
  | .undefined => 0x04 | .swi => 0x08 | .prefetchAbort => 0x0C | .dataAbort => 0x10 | .irq => 0x18 | .fiq => 0x1C

/-- VectorBase (R310). -/
def State.vectorBase (s : State) : Word := if s.cp15.v then 0xFFFF0000 else 0

/-- The CPSR after entry (R312): M the new mode, T 0, I 1, F 1 for FIQ; everything else as it was. -/
def Exc.newCpsr (k : Exc) (p : Word) : Word :=
  p.extractLsb' 8 24 ++ 1#1 ++ BitVec.ofBool (Psr.f p || decide (k = .fiq)) ++ 0#1 ++ k.mode.bits

/-- Exception entry, the sequence of R312, with the link value of R313. -/
def State.takeException (s : State) (k : Exc) (link : Word) : State :=
  (((s.setBankReg k.mode lrReg link).setSpsr k.mode s.cpsr).setCpsr (k.newCpsr s.cpsr)).jump
    (s.vectorBase + k.offset)

/-- The link value of R313 for an exception of the instruction at `pc`; for an interrupt `pc` is `nxt`. -/
def State.link (s : State) (k : Exc) : Word :=
  match k with
  | .undefined => s.nextPc
  | .swi => s.nextPc
  | .prefetchAbort => s.pc + 4
  | .dataAbort => s.pc + 8
  | .irq => s.pc + 4
  | .fiq => s.pc + 4

/-- raise X (R312, R313). -/
def State.raise (s : State) (k : Exc) : State := s.takeException k (s.link k)

/-- raise UndefinedInstruction (R315). -/
def raiseUndefined (s : State) : Result := .next (s.raise .undefined)

/-- CPLATECANCEL: the instruction before this cycle caused a Data Abort (R146, R152); the ETM sees the abort (R366). Whether a
coprocessor instruction follows is not looked at (DEDUCED, entry 41). -/
def State.lateCancel (s : State) : State := { s with out := { s.out with cpLateCancel := true, dataAbort := true } }

/-- raise DataAbort (R318). -/
def raiseDataAbort (s : State) : Result := .next (s.raise .dataAbort).lateCancel

/-- raise PrefetchAbort (R317). -/
def raisePrefetchAbort (s : State) : Result := .next (s.raise .prefetchAbort)

/-! ## Returning from an exception (R325) -/

/-- The target of a return: bits [1:0] cleared for ARM state, bit 0 for Thumb state (R325). -/
def returnTarget (thumb : Bool) (v : Word) : Word := if thumb then v &&& ~~~1 else v &&& ~~~3

/-- CPSR <- SPSR ; pc <- v (R325). UNPREDICTABLE without an SPSR, or with an illegal mode in it (U-G3, U-G12). -/
def exceptionReturn (v : Word) (s : State) : Result :=
  match s.spsr? with
  | none => .refused .noSpsr
  | some p =>
    if (Mode.ofBits (Psr.m p)).isSome then .next ((s.setCpsr p).jump (returnTarget (Psr.t p) v))
    else .refused .illegalMode

/-! ## Conditions (R100) -/

/-- ConditionPassed(cond). -/
def Cond.holds (c : Cond) (p : Word) : Bool :=
  match c with
  | .eq => Psr.z p
  | .ne => !Psr.z p
  | .cs => Psr.c p
  | .cc => !Psr.c p
  | .mi => Psr.n p
  | .pl => !Psr.n p
  | .vs => Psr.v p
  | .vc => !Psr.v p
  | .hi => Psr.c p && !Psr.z p
  | .ls => !Psr.c p || Psr.z p
  | .ge => Psr.n p == Psr.v p
  | .lt => Psr.n p != Psr.v p
  | .gt => !Psr.z p && (Psr.n p == Psr.v p)
  | .le => Psr.z p || (Psr.n p != Psr.v p)
  | .al => true

/-- A conditional instruction: with its condition failed it only advances the pc (R100). -/
def onCond (c : Cond) (k : State → Result) (s : State) : Result :=
  if Cond.holds c s.cpsr then k s else s.done

/-- Stop for the reason given if the test says so, else go on. -/
def refuseIf (t : Bool) (r : Refusal) (k : Result) : Result := if t then .refused r else k

end Sys2Proof.Machine
end

