-- ==== Sys2Proof/Machine/Bus.lean ====
section
/-! DEFINITION. The data side of memory: routing (R51), alignment (R56), the primitives MemRead and MemWrite
(R62, R63), the drains (R70, R75), what other agents do to memory (R60, R74), and the watchpoint comparison that every data
access passes (R333, R335). -/

namespace Sys2Proof.Machine

/-- What a data access answers: a value and the new state; a Data Abort to be taken; a stop. -/
inductive Access (α : Type)
  | ok (a : α) (s : State)
  | abort (s : State)
  | stop (x : Stop)

/-- Go on with the value of an access. -/
def Access.bind {α β : Type} (x : Access α) (k : α → State → Access β) : Access β :=
  match x with
  | .ok a s => k a s
  | .abort s => .abort s
  | .stop x => .stop x

/-- An access that never completes (R357). -/
def Access.hangs {α : Type} : Access α := .stop (.fault .accessNeverCompletes)

/-- End an instruction with its last access; an abort becomes the Data Abort exception (R318), which changes nothing
else. -/
def Access.finish {α : Type} (x : Access α) (k : α → State → Result) : Result :=
  match x with
  | .ok a s => k a s
  | .abort s => raiseDataAbort s
  | .stop x => x.result

/-! ## The two TCMs by side -/

/-- A TCM. -/
def State.tcm (s : State) (side : Side) : Tcm :=
  match side with | .itcm => s.itcm | .dtcm => s.dtcm

/-- Replace a TCM. -/
def State.setTcm (s : State) (side : Side) (t : Tcm) : State :=
  match side with | .itcm => { s with itcm := t } | .dtcm => { s with dtcm := t }

/-- The size pins of a TCM (R32). -/
def Pins.tcmSize (p : Pins) (side : Side) : BitVec 5 :=
  match side with | .itcm => p.itcmSize | .dtcm => p.dtcmSize

/-- xTCMWAIT holds the accesses of a TCM for ever (R357). -/
def Pins.tcmHung (p : Pins) (side : Side) : Bool :=
  match side with | .itcm => p.itcmHung | .dtcm => p.dtcmHung

/-- The order bit of a TCM (R67). -/
def Cp15.order (c : Cp15) (side : Side) : Bool :=
  match side with | .itcm => c.iOrder | .dtcm => c.dOrder

/-- Where a data access goes (R51). -/
inductive Route
  | tcm (side : Side)
  | ahb
deriving DecidableEq, Repr

/-- The routing of R51. -/
def State.routeData (s : State) (a : Word) : Route :=
  if a.extractLsb' 26 6 = 0 then if s.cp15.i then .tcm .itcm else .ahb
  else if a.extractLsb' 26 6 = 1 then if s.cp15.d then .tcm .dtcm else .ahb
  else .ahb

/-- The TCM word an address selects: the memory repeats through its window (R50). -/
def State.tcmWord (s : State) (side : Side) (a : Word) : Nat :=
  (a.toNat % 2 ^ 26) % tcmBytes (s.pins.tcmSize side) / 4

/-- An enabled TCM must exist (D9) and have a size the spec lists (U-T16). -/
def State.tcmProblem (s : State) (side : Side) : Option Refusal :=
  if s.pins.tcmSize side = 0 then some .tcmAbsent
  else if tcmSizeLegal (s.pins.tcmSize side) then none
  else some .tcmSizePins

/-! ## Drains -/

/-- The AHB write buffer is written out (R70). -/
def State.drainAhb (s : State) : State := { s with ahb := s.ahb.drain }

/-- A TCM write buffer is written out. -/
def State.drainTcm (s : State) (side : Side) : State := s.setTcm side (s.tcm side).drain

/-- All three buffers are empty afterwards (R75, R133). -/
def State.drainAll (s : State) : State := ((s.drainAhb).drainTcm .itcm).drainTcm .dtcm

/-- Some buffer with data cannot be written out, because its interface holds the write for ever (R357). -/
def State.drainHangs (s : State) : Bool :=
  (s.pins.ahbHung && !s.ahb.buf.isEmpty) || (s.pins.itcmHung && !s.itcm.buf.isEmpty) ||
    (s.pins.dtcmHung && !s.dtcm.buf.isEmpty)

/-- The AHB write buffer writes its oldest word when the bus is free (R70). -/
def State.drainAhbOne (s : State) : State := if s.pins.ahbHung then s else { s with ahb := s.ahb.drainOne }

/-- A TCM write buffer drains its oldest entry (R66). -/
def State.drainTcmOne (s : State) (side : Side) : State :=
  if s.pins.tcmHung side then s else s.setTcm side (s.tcm side).drainOne

/-! ## Other agents (R60, R74) -/

/-- DMA writes a byte of a TCM (R74, R83); beyond its size there is nothing to write. -/
def dmaWrite (side : Side) (offset : Nat) (b : Byte) (s : State) : State :=
  if offset < tcmBytes (s.pins.tcmSize side) then
    let t := s.tcm side
    s.setTcm side { t with mem := t.mem.write offset b, init := insertNat t.init offset }
  else s

/-- What an agent other than the core does to the memories. -/
def applyBus (e : BusEvent) (s : State) : State :=
  match e with
  | .drainTcm side => s.drainTcmOne side
  | .drainAhb => s.drainAhbOne
  | .ahbWrite addr b => { s with ahb := { s.ahb with mem := s.ahb.mem.write addr.toNat b } }
  | .tcmWrite side offset b => dmaWrite side offset b s

/-- What the other agents do between two accesses of one instruction (R60): the next batch (DESIGN CHOICE, entry 7). -/
def State.betweenAccesses (s : State) : State :=
  match s.between with
  | [] => s
  | batch :: rest => batch.foldl (fun s e => applyBus e s) { s with between := rest }

/-! ## Watchpoints (R333, R335, R336) -/

/-- Two values agree in the bits that the mask does not set. -/
def maskedEq {n : Nat} (x y mask : BitVec n) : Bool := decide (x &&& ~~~mask = y &&& ~~~mask)

/-- An optional condition of a unit. -/
def optEq {α : Type} [DecidableEq α] (want : Option α) (got : α) : Bool :=
  match want with
  | none => true
  | some w => decide (w = got)

/-- DMAS[1:0] of an access: the code of HSIZE[1:0] (R88; PRESUMED, entry 44). -/
def Size.dmas : Size → BitVec 2
  | .byte => 0b00
  | .half => 0b01
  | .word => 0b10

/-- A bus cycle as the EmbeddedICE-RT logic sees it: a data access, or the fetch of an instruction. A read that aborts has no
value. -/
structure Seen where
  data : Bool
  addr : Word
  value : Option Word
  size : Size
  write : Bool
  privileged : Bool

/-- The unit compares data (not allowed in monitor mode, R336). -/
def WatchUnit.dataDependent (u : WatchUnit) : Bool := decide (u.valueMask ≠ 0xFFFFFFFF)

/-- The unit's comparison of the data. A read that aborts has no data on the bus, and a unit that compares data does not match
it (DESIGN CHOICE, entry 33: R324 does not say). -/
def WatchUnit.seesValue (u : WatchUnit) (v : Option Word) : Bool :=
  match v with
  | none => !u.dataDependent
  | some w => maskedEq w u.value u.valueMask

/-- The unit monitors this kind of cycle and this address. -/
def WatchUnit.seesAddress (u : WatchUnit) (x : Seen) : Bool := (u.onData == x.data) && maskedEq x.addr u.addr u.addrMask

/-- The unit's comparison of the direction and the size: nRW and DMAS[1:0] of a data access, ITBIT of a fetch (R336). -/
def WatchUnit.seesKind (u : WatchUnit) (x : Seen) : Bool :=
  if x.data then optEq u.write x.write && maskedEq x.size.dmas u.size u.sizeMask else optEq u.itbit (decide (x.size = .half))

/-- All conditions of a unit but the chain (R335), whether or not it is enabled. -/
def WatchUnit.sees (u : WatchUnit) (x : Seen) (ext : Bool) : Bool :=
  u.seesAddress x && u.seesValue x.value && u.seesKind x && optEq u.privileged x.privileged && optEq u.ext ext

/-- The comparators run (R331, R334). -/
def State.compares (s : State) : Bool := s.pins.dbgen && !s.dbg.inDebug

/-- DBGRNG[0] for a cycle (R335): with its chain bit set, unit 0 matches only after unit 1 has (R336). Its
external condition is DBGEXT[0] (PRESUMED, entry 44). -/
def State.range0 (x : Seen) (s : State) : Bool :=
  s.compares && s.dbg.unit0.sees x (s.pins.dbgext.getLsbD 0) && (!s.dbg.unit0.chain || s.chain)

/-- DBGRNG[1] for a cycle (R335); the external condition of unit 1 is DBGEXT[1] (PRESUMED, entry 44). -/
def State.range1 (x : Seen) (s : State) : Bool := s.compares && s.dbg.unit1.sees x (s.pins.dbgext.getLsbD 1)

/-- Unit 0 is enabled and matches. -/
def State.hit0 (x : Seen) (s : State) : Bool := s.dbg.unit0.enable && s.range0 x

/-- Unit 1 is enabled and matches. -/
def State.hit1 (x : Seen) (s : State) : Bool := s.dbg.unit1.enable && s.range1 x

/-- The pins after a cycle: of several data transfers in a step, and of several fetches, they show the last (R366; DESIGN CHOICE,
entry 42). A read that aborts has no value, and the read data stays that of the last read which had one; the write data stays in
a read, and the read data in a write (DESIGN CHOICE, entry 42). -/
def Outputs.afterCycle (o : Outputs) (x : Seen) (sequential : Bool) : Outputs :=
  if x.data then
    { o with
      dataReq := true, dataSeq := o.dataReq && decide (x.addr = o.dataAddr + 4), dataAddr := x.addr, dataSize := x.size
      dataWrite := x.write
      readData := if x.write then o.readData else x.value.getD o.readData
      writeData := if x.write then x.value.getD o.writeData else o.writeData }
  else { o with fetchReq := true, fetchSeq := sequential }

/-- What a cycle leaves on the output pins, DBGRNG among them, and on the chain latch, which a cycle at the address of unit 1
loads with its match (R336; PRESUMED, entry 44). -/
def State.noteCycle (x : Seen) (s : State) : State :=
  { s with
    out := { s.out.afterCycle x (!s.fetch.pipe.isEmpty) with
      rng0 := s.out.rng0 || s.range0 x, rng1 := s.out.rng1 || s.range1 x }
    chain := if s.compares && s.dbg.unit1.seesAddress x then s.range1 x else s.chain }

/-- Record a watched access (R333): after it one more instruction completes. With one recorded already nothing
changes. -/
def State.noteWatch (s : State) : State :=
  match s.dbg.watch with
  | .none => { s with dbg := { s.dbg with watch := .hit } }
  | .hit => s
  | .oneMore => s

/-- Record a watched access that aborted: debug state is entered after the exception entry (R324). -/
def State.noteWatchAbort (s : State) : State := { s with dbg := { s.dbg with watch := .oneMore } }

/-- DbgAbt becomes 1 (R44, R336). -/
def State.setDbgAbt (s : State) : State := { s with dcc := { s.dcc with dbgAbt := true } }

/-- What the watchpoint logic says of an access: nothing, a match, or a match that monitor mode does not support. -/
inductive WatchAnswer
  | quiet | watched | unsupported
deriving DecidableEq, Repr

/-- The comparison (R333, R335): nothing is compared in debug state or with DBGEN LOW (R331). Data-dependent and external
watchpoints are not supported in monitor mode (R336, U-T11): one that matches is refused, one that does not is ignored (DESIGN
CHOICE, entry 33). -/
def watchAnswer (x : Seen) (s : State) : WatchAnswer :=
  let m0 := s.hit0 x
  let m1 := s.hit1 x
  let mx := s.compares && s.pins.dbgdewpt
  if !(m0 || m1 || mx) then .quiet
  else if s.dbg.monitor &&
      (mx || (m0 && s.dbg.unit0.dataDependent) || (m1 && s.dbg.unit1.dataDependent)) then .unsupported
  else .watched

/-- A read that was made, of the value `v`, passes the comparison. In halt mode a match is recorded; in monitor mode it takes
the Data Abort and the value is dropped (R336). -/
def noteRead (x : Seen) (v : Word) (s : State) : Access Word :=
  let s' := s.noteCycle x
  match watchAnswer x s with
  | .quiet => .ok v s'
  | .unsupported => .stop (.refuse .monitorUnsupported)
  | .watched => if s.dbg.monitor then .abort s'.setDbgAbt else .ok v s'.noteWatch

/-- A write passes the comparison; `before` is the state without it. In monitor mode it is free whether a watched write
reached memory (R336, D17). -/
def noteWrite (x : Seen) (before s : State) : Access Unit :=
  let s' := s.noteCycle x
  match watchAnswer x s with
  | .quiet => .ok () s'
  | .unsupported => .stop (.refuse .monitorUnsupported)
  | .watched =>
    if s.dbg.monitor then
      if s.takeBool.1 then .abort s'.takeBool.2.setDbgAbt else .abort (before.noteCycle x).takeBool.2.setDbgAbt
    else .ok () s'.noteWatch

/-- An access that aborts: in halt mode a match is latched, in monitor mode the abort has priority and leaves no mark
(R324). The comparators show the match either way (R335). -/
def noteAbort (x : Seen) (s : State) : State :=
  let s' := s.noteCycle x
  if s.dbg.monitor || !(s.hit0 x || s.hit1 x || (s.compares && s.pins.dbgdewpt)) then s' else s'.noteWatchAbort

/-! ## MemRead and MemWrite -/

/-- The address with the low bits of the access cleared (R57). -/
def alignTo (size : Size) (a : Word) : Word :=
  match size with
  | .byte => a | .half => a &&& ~~~1 | .word => a &&& ~~~3

/-- The access is not aligned to its size (R56). -/
def misaligned (size : Size) (a : Word) : Bool := decide (alignTo size a ≠ a)

/-- An alignment fault: checking is on and the access is not aligned (R56). -/
def State.alignFault (s : State) (size : Size) (a : Word) : Bool := s.cp15.a && misaligned size a

/-- The access is marked User on the bus (R90, R224). -/
def State.userAccess (s : State) (force : Bool) : Bool := force || !s.privileged

/-- A data access as the watchpoint logic and the data port see it. A byte or halfword is shown zero-extended, in the low bits
(DESIGN CHOICE, entry 42: the spec does not say which lanes of ETMRDATA and ETMWDATA carry it). -/
def dataCycle (write user : Bool) (size : Size) (a : Word) (v : Option Word) : Seen :=
  { data := true, addr := a, value := v, size := size, write := write, privileged := !user }

/-- A read of a TCM: it waits for the buffer where the order bit says so (R37, R67); an error aborts (R65). -/
def readTcm (side : Side) (size : Size) (a : Word) (s : State) : Access Word :=
  match s.tcmProblem side with
  | some r => .stop (.refuse r)
  | none =>
    let t := (s.tcm side).waited (s.cp15.order side)
    let w := s.tcmWord side a
    let lanes := accessLanes s.cp15.b size a
    if s.pins.tcmHung side && t.readsMemory w lanes then .hangs
    else if t.readError w lanes then .abort (s.setTcm side t)
    else .ok (takeLanes s.cp15.b size a (t.readWord w)) (s.setTcm side t)

/-- A read on the AHB: the write buffer is emptied first (R70), ERROR aborts. -/
def readAhb (user : Bool) (size : Size) (a : Word) (s : State) : Access Word :=
  if s.pins.ahbHung then .hangs
  else
    let s := s.drainAhb
    if s.ahb.error .read user a then .abort s
    else .ok (takeLanes s.cp15.b size a (s.ahb.mem.readWord (wordNumber a))) s

/-- MemRead(addr, n) (R62): the value zero-extended. `forceUser` marks the access as a User one (R224). -/
def memRead (forceUser : Bool) (size : Size) (addr : Word) (s : State) : Access Word :=
  if s.alignFault size addr then .abort s
  else
    let a := alignTo size addr
    let user := s.userAccess forceUser
    match (match s.routeData a with
      | .tcm side => readTcm side size a s
      | .ahb => readAhb user size a s) with
    | .ok v s => noteRead (dataCycle false user size a (some v)) v s
    | .abort s => .abort (noteAbort (dataCycle false user size a none) s)
    | .stop x => .stop x

/-- A store uses the AHB write buffer (R69). -/
def State.buffered (s : State) (a : Word) (swap : Bool) : Bool := s.cp15.w && !a.getLsbD 28 && !swap

/-- A write to a TCM: into its buffer, never an abort (R63, R66). It waits where the order bit was set over a buffer with
data (R37), and where the buffer is full. -/
def writeTcm (side : Side) (size : Size) (a v : Word) (s : State) : Access Unit :=
  match s.tcmProblem side with
  | some r => .stop (.refuse r)
  | none =>
    let t := s.tcm side
    if s.pins.tcmHung side && ((t.hold && !t.buf.isEmpty) || decide (2 ≤ t.buf.length)) then .hangs
    else
      .ok () (s.setTcm side ((t.waited false).push
        { word := s.tcmWord side a, lanes := accessLanes s.cp15.b size a, data := putLanes s.cp15.b size a v }))

/-- The AHB write buffer takes a store without writing anything out (R70). -/
def Ahb.fits (h : Ahb) (seq : Bool) (e : AhbEntry) : Bool := h.hasRoom true || (seq && h.hasRoom false && h.continues e)

/-- A write on the AHB: buffered, or at once after the buffer is empty, when ERROR aborts (R63, R70). -/
def writeAhb (user swap seq : Bool) (size : Size) (a v : Word) (s : State) : Access Unit :=
  let lanes := accessLanes s.cp15.b size a
  let data := putLanes s.cp15.b size a v
  if s.buffered a swap then
    let e : AhbEntry := { addr := a, size := size, user := user, lanes := lanes, data := [data] }
    if s.pins.ahbHung && !s.ahb.fits seq e then .hangs
    else .ok () { s with ahb := if seq then s.ahb.pushSeq e else s.ahb.push e }
  else if s.pins.ahbHung then .hangs
  else
    let s := s.drainAhb
    if s.ahb.error .write user a then .abort s
    else .ok () { s with ahb := s.ahb.writeWord user a lanes data }

/-- A write goes to the memory behind its address (R51, R63), before the watchpoint logic looks at it. -/
def routeWrite (user swap seq : Bool) (size : Size) (a v : Word) (s : State) : Access Unit :=
  match s.routeData a with
  | .tcm side => writeTcm side size a v s
  | .ahb => writeAhb user swap seq size a v s

/-- MemWrite(addr, n, v) (R63). `swap` is the write of a SWP (R69), `seq` a further word of a store multiple
(R70). -/
def memWrite (forceUser swap seq : Bool) (size : Size) (addr v : Word) (s : State) : Access Unit :=
  if s.alignFault size addr then .abort s
  else
    let a := alignTo size addr
    let user := s.userAccess forceUser
    let cycle := dataCycle true user size a (some (size.trunc v))
    match routeWrite user swap seq size a v s with
    | .ok _ s' => noteWrite cycle s s'
    | .abort s' => .abort (noteAbort cycle s')
    | .stop x => .stop x

/-- What a write to an address forces out of the buffers before it is made (R37, R70). -/
def State.forcedBy (s : State) (addr : Word) : State :=
  let a := alignTo .word addr
  match s.routeData a with
  | .tcm side => s.setTcm side ((s.tcm side).waited false)
  | .ahb => if s.buffered a false then s else s.drainAhb

/-! ## Sequences of words (R235, R236) -/

/-- n word addresses upwards from a start. -/
def wordAddresses (start : Word) : Nat → List Word
  | 0 => []
  | n + 1 => start :: wordAddresses (start + 4) n

/-- Word reads in ascending order (R235); between two of them the other agents act (R60). After an abort no further read is
made (DESIGN CHOICE, entry 17: R236 (5) leaves it open). -/
def readWords : List Word → State → Access (List Word)
  | [], s => .ok [] s
  | a :: as, s =>
    (memRead false .word a s).bind fun v s =>
      (readWords as (if as.isEmpty then s else s.betweenAccesses)).bind fun vs s => .ok (v :: vs) s

/-- A word of a store multiple that is written after the aborting one passes the comparison (R333, R335); `before` is the state
without the write. In halt mode a match is recorded. In monitor mode the Data Abort is taken anyway: whether the word was
written (D17) and whether the match sets DbgAbt are free, and a match that monitor mode does not support is not refused (DESIGN
CHOICE, entry 17). -/
def noteLateWrite (x : Seen) (before s : State) : State :=
  if watchAnswer x s = .quiet then s.noteCycle x
  else if s.dbg.monitor then
    let t := ((if s.takeBool.1 then s else before).noteCycle x).takeBool.2
    if t.takeBool.1 then t.takeBool.2.setDbgAbt else t.takeBool.2
  else (s.noteCycle x).noteWatch

/-- After an abort each further word of a store multiple is written or not, free (R236 (4), U-46-2), so each holds its old content
or the stored value, watched or not. A word that its memory answers with ERROR is not written. DESIGN CHOICE, entries 10 and 17:
the core does not issue a word that could not be written, because the interface never answers (R357) or the spec makes no claim
about the TCM (D9, U-T16); it goes on to the Data Abort. -/
def maybeStore : List (Word × Word) → State → State
  | [], s => s
  | (a, v) :: rest, s =>
    let (issued, s) := s.takeBool
    if issued && !s.alignFault .word a then
      let user := s.userAccess false
      let cycle := dataCycle true user .word (alignTo .word a) (some v)
      match routeWrite user false false .word (alignTo .word a) v s with
      | .ok _ s' => maybeStore rest (noteLateWrite cycle s s')
      | .abort s' => maybeStore rest (noteAbort cycle s')
      | .stop _ => maybeStore rest s
    else maybeStore rest s

/-- Word writes in ascending order; between two of them the other agents act (R60). Those before an abort stay written
(R236 (4)). -/
def writeWords (seq : Bool) : List (Word × Word) → State → Access Unit
  | [], s => .ok () s
  | (a, v) :: rest, s =>
    match memWrite false false seq .word a v s with
    | .ok _ s' => writeWords true rest (if rest.isEmpty then s' else s'.betweenAccesses)
    | .abort s' => .abort (maybeStore rest s')
    | .stop x => .stop x

end Sys2Proof.Machine
end

