-- ==== Sys2Proof/Machine/Bist.lean ====
section
/-! DEFINITION. The BIST engines and their registers (spec/10_state.md rules R38 to R40; spec/40_cp15_system_control.md
rules R138 to R143; spec/61_debug_trace_test.md rules R344 to R349). -/

namespace Sys2Proof.Machine

/-- What an operation that may lie outside the rules of use answers. -/
abbrev Checked := Except Stop State

/-- Stop for the reason given if the test says so, else go on. -/
def failIf (t : Bool) (r : Refusal) (k : Checked) : Checked := if t then .error (.refuse r) else k

/-! ## The two engines by side -/

/-- An engine. -/
def State.bist (s : State) (side : Side) : Bist :=
  match side with | .itcm => s.cp15.bistI | .dtcm => s.cp15.bistD

/-- Replace an engine. -/
def State.setBist (s : State) (side : Side) (b : Bist) : State :=
  match side with
  | .itcm => { s with cp15 := { s.cp15 with bistI := b } }
  | .dtcm => { s with cp15 := { s.cp15 with bistD := b } }

/-- BIST_PRESENT (R344). -/
def Pins.bistPresent (p : Pins) (side : Side) : Bool :=
  match side with | .itcm => p.bistI | .dtcm => p.bistD

/-- The functional enable of a TCM (R33). -/
def Cp15.tcmOn (c : Cp15) (side : Side) : Bool :=
  match side with | .itcm => c.i | .dtcm => c.d

/-- Clear the functional enable of a TCM (R38). -/
def State.tcmOff (s : State) (side : Side) : State :=
  match side with
  | .itcm => { s with cp15 := { s.cp15 with i := false } }
  | .dtcm => { s with cp15 := { s.cp15 with d := false } }

/-! ## The BIST Control Register (R38, R138, R139) -/

/-- One side of the register as it reads: size, complete, fail, enable, pause, running. Without BIST hardware the
size reads as zero. -/
def Bist.status (b : Bist) (present : Bool) : BitVec 16 :=
  (if present then b.size else 0) ++ BitVec.ofBool b.complete ++ BitVec.ofBool b.fail ++ BitVec.ofBool b.enable ++
    BitVec.ofBool b.pause ++ BitVec.ofBool b.running

/-- The register as it reads (R138). -/
def State.bistControl (s : State) : Word :=
  (s.bist .itcm).status (s.pins.bistPresent .itcm) ++ (s.bist .dtcm).status (s.pins.bistPresent .dtcm)

/-- Which bits of the register a read states: bits [15:10] of a side are not stated (U-T6), except that the size of an
engine without hardware reads as zero. -/
def State.bistControlMask (s : State) : Word :=
  0x03FF03FF ||| (if s.pins.bistPresent .itcm then 0 else 0xFC000000) |||
    (if s.pins.bistPresent .dtcm then 0 else 0x0000FC00)

/-- Read the register (R138). -/
def readBistControl (s : State) : Word × State :=
  (partlyFree s.bistControl s.bistControlMask s.takeWord.1, s.takeWord.2)

/-- The size of a test in bytes (R38). -/
def bistBytes (size : BitVec 11) : Nat := 2 ^ (size.toNat + 2)

/-- A test of this size may start (R38, R139, R345): N from 1 to 24, the block within the TCM. -/
def bistRangeOk (s : State) (side : Side) (size : BitVec 11) : Bool :=
  decide (1 ≤ size.toNat) && decide (size.toNat ≤ 24) &&
    decide ((s.bist side).addrReg.toNat + bistBytes size ≤ tcmBytes (s.pins.tcmSize side))

/-- The start strobe (R347, R349): a paused engine goes on from where it stands, an idle one begins at pass 1, which
clears the flags and invalidates the failure record. The pause bit selects Auto pause. -/
def Bist.start (b : Bist) (pause : Bool) : Bist :=
  match b.cursor with
  | some _ => { b with running := true, auto := pause }
  | none =>
    { b with
      running := true, auto := pause, complete := false, fail := false, failValid := false
      cursor := some { pass := .one, addr := b.addrReg.toNat } }

/-- The cases in which the spec does not say where the algorithm stands afterwards (DESIGN CHOICE, entry 30): the enable is
cleared on a test in progress or paused, or the start strobe is written on a running one ("start or restart"). The pause
point is kept or forgotten, free. -/
def bistForgets (b : Bist) (enable strobe : Bool) (s : State) : Bool × State :=
  if b.cursor.isSome && (!enable || strobe && b.running) then s.takeBool else (false, s)

/-- A write of one side (R139). Refused: a strobe without the enable, on a size out of range or without BIST hardware; a
change of the size during a test. Setting the pause bit pauses a running test, and clearing the enable ends it. A pause bit
that is set already, as in an Auto pause run, and written 1 again without a strobe, lets the test run on (DESIGN CHOICE, entry
30). The enable clears the functional enable of the TCM, whose write buffer must be empty (R68). -/
def bistWriteSide (side : Side) (field : BitVec 16) (s : State) : Checked :=
  let b := s.bist side
  let size := field.extractLsb' 5 11
  let enable := field.getLsbD 2
  let pause := field.getLsbD 1
  let strobe := field.getLsbD 0
  failIf (strobe && (!enable || !s.pins.bistPresent side || !bistRangeOk s side size)) .bistRules
    (failIf (b.running && decide (size ≠ b.size)) .bistRules
      (failIf (enable && s.cp15.tcmOn side && !(s.tcm side).buf.isEmpty) .tcmBufferNotEmpty
        (let (forget, s) := bistForgets b enable strobe s
         let b' := { b with size := size, enable := enable, pause := pause
                            running := b.running && enable && (b.pause || !pause)
                            cursor := if forget then none else b.cursor }
         let b' := if strobe then b'.start pause else b'
         let s := s.setBist side b'
         .ok (if enable then s.tcmOff side else s))))

/-- A write of the register (R139): the Should Be Zero bits must be zero (U-T6). -/
def bistWriteControl (v : Word) (s : State) : Checked :=
  failIf (decide (v &&& 0xFC18FC18 ≠ 0)) .cp15ReservedBits
    ((bistWriteSide .itcm (v.extractLsb' 16 16) s).bind (bistWriteSide .dtcm (v.extractLsb' 0 16)))

/-! ## Address and general registers (R39, R140 to R143, R348) -/

/-- The bits of an address that lie within a TCM: its physical size is taken as the "usable address range" of R39, to which
every address written is truncated, start addresses too (DESIGN CHOICE, entry 31). -/
def tcmMask (s : State) (side : Side) : Word := BitVec.ofNat 32 (tcmBytes (s.pins.tcmSize side) - 1)

/-- The bit above the usable range that flags a failure by xTCMERROR (R39, R140); which one is not stated (N-10-6). -/
def bistErrorFlag (s : State) (side : Side) : Word :=
  let bits := max 2 (if s.pins.tcmSize side = 0 then 0 else (s.pins.tcmSize side).toNat + 9)
  1 <<< (bits + Config.bistErrorBit bits % (32 - bits))

/-- Read the address register (R140): the fail address with its error flag; bits [1:0] and the other bits above the usable
range are zero. Before a failure the bits that may be set are no defined value. -/
def bistReadAddress (side : Side) (s : State) : Word × State :=
  let b := s.bist side
  let range := tcmMask s side &&& ~~~3
  let flag := bistErrorFlag s side
  if b.failValid then ((b.failAddr &&& range) ||| (if b.failErr then flag else 0), s)
  else (s.takeWord.1 &&& (range ||| flag), s.takeWord.2)

/-- Peek and poke are described for an engine that is present and enabled, on a TCM that is functionally disabled
(R348). -/
def peekDescribed (s : State) (side : Side) : Bool :=
  s.pins.bistPresent side && (s.bist side).enable && !s.cp15.tcmOn side

/-- There is a memory to peek into. -/
def peekExists (s : State) (side : Side) : Bool := decide (s.pins.tcmSize side ≠ 0)

/-- A peek or a poke that the TCM has not answered holds up the next one (R143, R348); on a TCM that never answers it hangs the
core (R357). -/
def afterAccess (side : Side) (s : State) (k : Checked) : Checked :=
  if (s.bist side).access.isSome then .error (.fault .accessNeverCompletes) else k

/-- A peek or poke that the TCM has not answered completes. -/
def finishAccess (side : Side) (s : State) : State :=
  let b := s.bist side
  match b.access with
  | none => s
  | some (.peek a) =>
    s.setBist side { b with peekData := (s.tcm side).mem.readWord (wordNumber a), access := none }
  | some (.poke a v) =>
    (s.setBist side { b with access := none }).setTcm side ((s.tcm side).commit (wordNumber a) 0b1111 v)

/-- The engine makes a peek or a poke: it completes at once, or waits while the TCM does not answer. -/
def makeAccess (side : Side) (x : BistAccess) (s : State) : State :=
  let s := s.setBist side { s.bist side with access := some x }
  if s.pins.tcmHung side then s else finishAccess side s

/-- Write the address register (R141): with the pause bit set this is the address of a peek and starts it, and the
failure record is invalid from then on. Where peeks are not described the data peeked is free. An xTCMERROR on the word
peeked has no effect (DESIGN CHOICE, entry 31: the spec states none). -/
def bistWriteAddress (side : Side) (v : Word) (s : State) : Checked :=
  let b := s.bist side
  let a := v &&& ~~~3 &&& tcmMask s side
  if b.pause then
    afterAccess side s
      (let (free, s) := s.takeWord
       let b := { b with addrReg := a, failValid := false }
       .ok (if peekDescribed s side && peekExists s side then makeAccess side (.peek a) (s.setBist side b)
         else s.setBist side { b with peekData := free }))
  else .ok (s.setBist side { b with addrReg := a })

/-- A read of the peek data waits for a peek that the TCM has not answered (R142, R348, R357). -/
def peekHangs (s : State) (side : Side) : Bool :=
  (s.bist side).pause &&
    match (s.bist side).access with
    | none => false
    | some (.peek _) => true
    | some (.poke _ _) => false

/-- Read the general register (R142): the fail data, or with the pause bit set the data of the last peek. -/
def bistReadGeneral (side : Side) (s : State) : Word × State :=
  let b := s.bist side
  if b.pause then (b.peekData, s)
  else if b.failValid then (b.failData, s)
  else s.takeWord

/-- Write the general register (R143): with the pause bit set this is a poke, which goes to the memory past the TCM
enable and the write buffer. Where pokes are not described it is free whether the word is written. -/
def bistWriteGeneral (side : Side) (v : Word) (s : State) : Checked :=
  let b := s.bist side
  if b.pause then
    afterAccess side s
      (let (free, s) := s.takeBool
       let s := s.setBist side { b with dataReg := v, failValid := false }
       .ok (if (peekDescribed s side || free) && peekExists s side then
           makeAccess side (.poke (b.addrReg &&& tcmMask s side) v) s
         else s))
  else .ok (s.setBist side { b with dataReg := v })

/-! ## The algorithm (R345, R349) -/

/-- A failed test (R345). -/
def Bist.failed (b : Bist) (a : Nat) (d : Word) (err : Bool) : Bist :=
  { b with failAddr := BitVec.ofNat 32 a, failData := d, failValid := true, failErr := err, fail := true
           complete := true, running := false, cursor := none }

/-- A test that passed (R345). -/
def Bist.passed (b : Bist) : Bist := { b with complete := true, running := false, cursor := none }

/-- Go on at another pass, or wait there in Auto pause mode (R349). -/
def Bist.nextPass (b : Bist) (pass : BistPass) (a : Nat) : Bist :=
  { b with cursor := some { pass := pass, addr := a }, running := !b.auto }

/-- Go on at the next word of a pass. -/
def Bist.moveTo (b : Bist) (pass : BistPass) (a : Nat) : Bist :=
  { b with cursor := some { pass := pass, addr := a } }

/-- Read a word and compare it: what the test does if it matches, else the failed engine. -/
def bistCheck (b : Bist) (t : Tcm) (a : Nat) (want : Word) (k : Bist × Tcm) : Bist × Tcm :=
  let err := t.err.contains (a / 4)
  let d := t.mem.readWord (a / 4)
  if err || decide (d ≠ want) then (b.failed a d err, t) else k

/-- The work on one word of one pass (R345): `lo` and `hi` are the first and the last word of the block, `p` the
pattern. -/
def bistWord (b : Bist) (t : Tcm) (pass : BistPass) (a lo hi : Nat) (p : Word) : Bist × Tcm :=
  match pass with
  | .one =>
    let t := t.commit (a / 4) 0b1111 p
    (if hi ≤ a then b.nextPass .two lo else b.moveTo .one (a + 4), t)
  | .two =>
    bistCheck b t a p
      (let t := t.commit (a / 4) 0b1111 (~~~p)
       bistCheck b t a (~~~p) (if hi ≤ a then b.nextPass .three hi else b.moveTo .two (a + 4), t))
  | .three =>
    let t := t.commit (a / 4) 0b1111 p
    bistCheck b t a p (if a ≤ lo then b.passed else b.moveTo .three (a - 4), t)

/-- A running engine works on its next word, if the TCM answers. A block that does not lie within the TCM (the address register was
rewritten during the test) makes no claim. -/
def bistTick (side : Side) (s : State) : Checked :=
  let b := s.bist side
  match b.cursor with
  | none => .ok s
  | some c =>
    if b.running && !s.pins.tcmHung side then
      let lo := b.addrReg.toNat
      let hi := lo + bistBytes b.size - 4
      failIf (!bistRangeOk s side b.size || decide (hi < c.addr) || decide (c.addr < lo)) .bistRules
        (let r := bistWord b (s.tcm side) c.pass c.addr lo hi b.dataReg
         .ok ((s.setBist side r.1).setTcm side r.2))
    else .ok s

end Sys2Proof.Machine
end

