-- ==== Sys2Proof/Machine/Flags.lean ====
section
/-! DEFINITION. Arithmetic with its flags (spec/00_scope.md rule R15, spec/42_arm_data_processing.md rule R171):
operands become integers, the exact result is narrowed, and carry and overflow compare the two. -/

namespace Sys2Proof.Machine

/-- A result with the C and V that go with it. -/
structure AluOut where
  result : Word
  c : Bool
  v : Bool
deriving DecidableEq, Repr

/-- x + y + cin: CarryFrom and OverflowFrom (R15, R176, R177). -/
def addFlags (x y : Word) (cin : Bool) : AluOut :=
  let r := x + y + bitWord cin
  { result := r
    c := decide (2 ^ 32 ≤ x.toNat + y.toNat + cin.toNat)
    v := decide (r.toInt ≠ x.toInt + y.toInt + cin.toNat) }

/-- x - y - NOT(cin): C is NOT BorrowFrom, V is OverflowFrom (R15, R174, R178). -/
def subFlags (x y : Word) (cin : Bool) : AluOut :=
  let r := x - y - bitWord (!cin)
  { result := r
    c := decide (y.toNat + (!cin).toNat ≤ x.toNat)
    v := decide (r.toInt ≠ x.toInt - y.toInt - (!cin).toNat) }

/-- A logical result: C from the shifter, V as it was (R171). -/
def logicFlags (r : Word) (shifterCarry : Bool) (p : Word) : AluOut :=
  { result := r, c := shifterCarry, v := Psr.v p }

/-- N, Z, C, V from a result (R171). -/
def State.setFlags (s : State) (o : AluOut) : State :=
  s.setCpsr (Psr.setNzcv s.cpsr (o.result.getLsbD 31) (decide (o.result = 0)) o.c o.v)

/-- N and Z from a 32-bit result, C and V as they were (R188 (c)). -/
def State.setNz (s : State) (r : Word) : State := s.setCpsr (Psr.setNz s.cpsr (r.getLsbD 31) (decide (r = 0)))

/-- N and Z from a 64-bit result (R191). -/
def State.setNz64 (s : State) (r : BitVec 64) : State :=
  s.setCpsr (Psr.setNz s.cpsr (r.getLsbD 63) (decide (r = 0)))

/-- Q becomes 1 if the argument says so (R26, R188 (d)). -/
def State.orQ (s : State) (q : Bool) : State := s.setCpsr (Psr.orQ s.cpsr q)

/-- SignedSat32(x) (R15). -/
def signedSat32 (x : Int) : Word :=
  if x < -2 ^ 31 then 0x80000000 else if 2 ^ 31 - 1 < x then 0x7FFFFFFF else BitVec.ofInt 32 x

/-- SignedDoesSat32(x) (R15). -/
def signedDoesSat32 (x : Int) : Bool := decide (x < -2 ^ 31 ∨ 2 ^ 31 - 1 < x)

/-- The sixteen data-processing operations of R102. -/
inductive AluOp
  | and | eor | sub | rsb | add | adc | sbc | rsc | tst | teq | cmp | cmn | orr | mov | bic | mvn
deriving DecidableEq, Repr

/-- The operation on the first operand and the shifter operand, with C and V (R172 to R187). -/
def AluOp.compute (op : AluOp) (a b : Word) (shifterCarry : Bool) (p : Word) : AluOut :=
  match op with
  | .and => logicFlags (a &&& b) shifterCarry p
  | .eor => logicFlags (a ^^^ b) shifterCarry p
  | .sub => subFlags a b true
  | .rsb => subFlags b a true
  | .add => addFlags a b false
  | .adc => addFlags a b (Psr.c p)
  | .sbc => subFlags a b (Psr.c p)
  | .rsc => subFlags b a (Psr.c p)
  | .tst => logicFlags (a &&& b) shifterCarry p
  | .teq => logicFlags (a ^^^ b) shifterCarry p
  | .cmp => subFlags a b true
  | .cmn => addFlags a b false
  | .orr => logicFlags (a ||| b) shifterCarry p
  | .mov => logicFlags b shifterCarry p
  | .bic => logicFlags (a &&& ~~~b) shifterCarry p
  | .mvn => logicFlags (~~~b) shifterCarry p

end Sys2Proof.Machine
end

