-- ==== Sys2Proof/Machine/Operands.lean ====
section
/-! DEFINITION. Every operand form: the shifter operand (R170), immediates (R114, R118), the offsets of the load and
store forms (R106, R107, R155). -/

namespace Sys2Proof.Machine

/-- A shifter operand and its carry (R170). -/
structure ShifterOut where
  value : Word
  carry : Bool
deriving DecidableEq, Repr

/-- A shift by a constant amount, bits [11:7] and [6:5] (R170): LSL #0 is no shift, LSR #0 and ASR #0 are shifts by
32, ROR #0 is RRX. -/
def shiftByImm (k : ShiftKind) (n : Nat) (x : Word) (c : Bool) : ShifterOut :=
  match k with
  | .lsl => if n = 0 then ⟨x, c⟩ else ⟨x <<< n, x.getLsbD (32 - n)⟩
  | .lsr => if n = 0 then ⟨0, x.getLsbD 31⟩ else ⟨x >>> n, x.getLsbD (n - 1)⟩
  | .asr =>
    if n = 0 then ⟨if x.getLsbD 31 then 0xFFFFFFFF else 0, x.getLsbD 31⟩
    else ⟨x.sshiftRight n, x.getLsbD (n - 1)⟩
  | .ror =>
    if n = 0 then ⟨BitVec.ofBool c ++ x.extractLsb' 1 31, x.getLsbD 0⟩
    else ⟨x.rotateRight n, x.getLsbD (n - 1)⟩

/-- A shift by the bottom byte of a register, `n` in 0 to 255 (R170). -/
def shiftByReg (k : ShiftKind) (n : Nat) (x : Word) (c : Bool) : ShifterOut :=
  match k with
  | .lsl =>
    if n = 0 then ⟨x, c⟩ else ⟨if n < 32 then x <<< n else 0, if n ≤ 32 then x.getLsbD (32 - n) else false⟩
  | .lsr =>
    if n = 0 then ⟨x, c⟩ else ⟨if n < 32 then x >>> n else 0, if n ≤ 32 then x.getLsbD (n - 1) else false⟩
  | .asr =>
    if n = 0 then ⟨x, c⟩
    else if n < 32 then ⟨x.sshiftRight n, x.getLsbD (n - 1)⟩
    else ⟨if x.getLsbD 31 then 0xFFFFFFFF else 0, x.getLsbD 31⟩
  | .ror =>
    if n = 0 then ⟨x, c⟩
    else if n % 32 = 0 then ⟨x, x.getLsbD 31⟩
    else ⟨x.rotateRight (n % 32), x.getLsbD (n % 32 - 1)⟩

/-- `<Rm>, <shift> #n` (R170). -/
def immShiftOperand (sh : BitVec 5) (k : ShiftKind) (rm : Reg) (s : State) : ShifterOut :=
  shiftByImm k sh.toNat (s.reg rm) (Psr.c s.cpsr)

/-- `<Rm>, <shift> <Rs>` (R170): only the bottom byte of Rs is used. -/
def regShiftOperand (rs : Reg) (k : ShiftKind) (rm : Reg) (s : State) : ShifterOut :=
  shiftByReg k ((s.reg rs).extractLsb' 0 8).toNat (s.reg rm) (Psr.c s.cpsr)

/-- An 8-bit value rotated right by twice rotate_imm (R114). -/
def rotatedImm (rot : BitVec 4) (imm : BitVec 8) : Word := (imm.setWidth 32).rotateRight (2 * rot.toNat)

/-- `#<immediate>` (R114, R170). -/
def immOperand (rot : BitVec 4) (imm : BitVec 8) (s : State) : ShifterOut :=
  ⟨rotatedImm rot imm, if rot = 0 then Psr.c s.cpsr else (rotatedImm rot imm).getLsbD 31⟩

/-- R15 is among the registers. -/
def usesR15 (rs : List Reg) : Bool := rs.contains 15

/-- A base plus or minus an offset, by the U bit (R101). -/
def offsetAddress (u : Bool) (base offset : Word) : Word := if u then base + offset else base - offset

/-- Half of a word: bit = 0 the bottom, bit = 1 the top (R195). -/
def halfOf (top : Bool) (v : Word) : BitVec 16 := if top then v.extractLsb' 16 16 else v.extractLsb' 0 16

/-- A Thumb immediate: an n-bit number times a power of two (R118). -/
def scaled {n : Nat} (imm : BitVec n) (scale : Nat) : Word := BitVec.ofNat 32 (imm.toNat * scale)

/-- (cur + 4) AND 0xFFFFFFFC, the base of Thumb PC-relative forms (R118). -/
def State.thumbPcBase (s : State) : Word := s.readPc &&& ~~~3

/-- The register numbers of a list field, lowest first (R108). -/
def listRegs {n : Nat} (list : BitVec n) : List Reg :=
  ((List.range n).filter (fun k => list.getLsbD k)).map (BitVec.ofNat 4)

end Sys2Proof.Machine
end

