-- ==== Sys2Proof/Machine/LoadStore.lean ====
section
/-! DEFINITION. ARM single loads and stores, doublewords, swaps and PLD (spec/45_arm_load_store.md). -/

namespace Sys2Proof.Machine

/-! ## Addressing modes (R215, R216) -/

/-- The address of an access and the new base, where the form writes the base back. -/
structure Addressed where
  address : Word
  newBase : Option Word
deriving DecidableEq, Repr

/-- Addressing mode 2 (R215). -/
def addressMode2 (x : Indexing) (u : Bool) (base offset : Word) : Addressed :=
  let sum := offsetAddress u base offset
  match x with
  | .offset => ⟨sum, none⟩
  | .preIndexed => ⟨sum, some sum⟩
  | .postIndexed => ⟨base, some sum⟩

/-- Addressing mode 3 (R216); P = 0 with W = 1 is UNPREDICTABLE and has no address. -/
def addressMode3 (p u w : Bool) (base offset : Word) : Option Addressed :=
  match p, w with
  | true, false => some (addressMode2 .offset u base offset)
  | true, true => some (addressMode2 .preIndexed u base offset)
  | false, false => some (addressMode2 .postIndexed u base offset)
  | false, true => none

/-- The form writes its base back. -/
def writesBack : Indexing → Bool
  | .offset => false | .preIndexed => true | .postIndexed => true

/-- The restrictions on registers of R215 and R216: no R15 as offset register, none as base with write-back, none as
Rd where the form excludes it; with write-back the base differs from Rd and from the offset register (U-G7). -/
def transferGuard (wb : Bool) (rn rd : Reg) (rm : Option Reg) (noRd15 : Bool) (k : Result) : Result :=
  refuseIf (decide (rm = some 15) || (wb && decide (rn = 15)) || (noRd15 && decide (rd = 15))) .r15Operand
    (refuseIf (wb && (decide (rd = rn) || decide (rm = some rn))) .registerClash k)

/-- The shifted offset register of addressing mode 2 (R215): the shifter's value; its carry is not used. -/
def indexOffset (sh : BitVec 5) (k : ShiftKind) (rm : Reg) (s : State) : Word := (immShiftOperand sh k rm s).value

/-! ## Loads and stores of one register -/

/-- LoadPC (R219): with LT = 0 bit 0 of the value selects the state, with LT = 1 the state is kept and the low bits are masked, as
the pseudocode of R219 has it (that U-G9 does not decide otherwise is DEDUCED, entry 14). -/
def loadPc (data : Word) (s : State) : Result :=
  if s.cp15.lt then .next (s.jump (returnTarget s.thumb data)) else jumpExchange data s

/-- The rotation of an unaligned word (R220). -/
def rotateLoaded (addr w : Word) : Word := w.rotateRight (8 * (addr.extractLsb' 0 2).toNat)

/-- LDR (R220). A load of R15 from an unaligned address with A = 0 is UNPREDICTABLE (U-G9). -/
def loadWord (user : Bool) (rn rd : Reg) (m : Addressed) (s : State) : Result :=
  refuseIf (decide (rd = 15) && !s.cp15.a && misaligned .word m.address) .branchTarget
    ((memRead user .word m.address s).finish fun w s =>
      let s := s.setReg? rn m.newBase
      let data := rotateLoaded m.address w
      if rd = 15 then loadPc data s else .next (s.setReg rd data).advance)

/-- A byte or halfword load with its extension (R222, R225, R227, R228). An unaligned halfword with A = 0 is
UNPREDICTABLE (R57). -/
def loadNarrow (user : Bool) (size : Size) (ext : Word → Word) (rn rd : Reg) (m : Addressed) (s : State) : Result :=
  refuseIf (!s.cp15.a && misaligned size m.address) .unaligned
    ((memRead user size m.address s).finish fun v s => .next ((s.setReg? rn m.newBase).setReg rd (ext v)).advance)

/-- STR and STRB (R221, R223): address bits [1:0] of a word are ignored with A = 0. -/
def storeOne (user : Bool) (size : Size) (rn rd : Reg) (m : Addressed) (s : State) : Result :=
  (memWrite user false false size m.address (s.storeReg rd) s).finish fun _ s =>
    .next (s.setReg? rn m.newBase).advance

/-- STRH (R226): an unaligned address with A = 0 is UNPREDICTABLE. -/
def storeHalf (rn rd : Reg) (m : Addressed) (s : State) : Result :=
  refuseIf (!s.cp15.a && misaligned .half m.address) .unaligned (storeOne false .half rn rd m s)

/-- The value of a byte, sign-extended (R227). -/
def signByte (v : Word) : Word := (v.extractLsb' 0 8).signExtend 32

/-- The value of a halfword, sign-extended (R228). -/
def signHalf (v : Word) : Word := (v.extractLsb' 0 16).signExtend 32

/-- A form of addressing mode 2 with an immediate offset (R215). -/
def mode2Imm (op : Reg → Reg → Addressed → State → Result) (noRd15 : Bool) (c : Cond) (x : Indexing) (u : Bool)
    (rn rd : Reg) (imm : BitVec 12) : State → Result :=
  onCond c fun s =>
    transferGuard (writesBack x) rn rd none noRd15
      (op rn rd (addressMode2 x u (s.reg rn) (imm.setWidth 32)) s)

/-- A form of addressing mode 2 with a register offset (R215). -/
def mode2Reg (op : Reg → Reg → Addressed → State → Result) (noRd15 : Bool) (c : Cond) (x : Indexing) (u : Bool)
    (rn rd : Reg) (sh : BitVec 5) (k : ShiftKind) (rm : Reg) : State → Result :=
  onCond c fun s =>
    transferGuard (writesBack x) rn rd (some rm) noRd15
      (op rn rd (addressMode2 x u (s.reg rn) (indexOffset sh k rm s)) s)

/-- A form of addressing mode 3 (R216), its offset register (if any) and offset given. -/
def mode3 (op : Reg → Reg → Addressed → State → Result) (p u w : Bool) (rn rd : Reg) (rm : Option Reg)
    (offset : Word) (s : State) : Result :=
  match addressMode3 p u w (s.reg rn) offset with
  | none => .refused .badIndexing
  | some m => transferGuard (!p || w) rn rd rm true (op rn rd m s)

/-- Addressing mode 3, immediate offset. -/
def mode3Imm (op : Reg → Reg → Addressed → State → Result) (c : Cond) (p u w : Bool) (rn rd : Reg) (imm : BitVec 8) :
    State → Result :=
  onCond c fun s => mode3 op p u w rn rd none (imm.setWidth 32) s

/-- Addressing mode 3, register offset: bits [11:8] Should Be Zero. -/
def mode3Reg (op : Reg → Reg → Addressed → State → Result) (c : Cond) (p u w : Bool) (rn rd sbz rm : Reg) :
    State → Result :=
  onCond c fun s =>
    refuseIf (decide (sbz ≠ 0)) .reservedField (mode3 op p u w rn rd (some rm) (s.reg rm) s)

/-! ## Doublewords (R229, R230) -/

/-- The alignment of a doubleword (R56): bits [2:0]. -/
def doubleMisaligned (a : Word) : Bool := decide (a.extractLsb' 0 3 ≠ 0)

/-- Where State keeps the base register of a transfer, none for R15. -/
def State.basePlace (s : State) (rn : Reg) : Option (Fin 30) := if rn = 15 then none else some (physIndex s.mode rn)

/-- An aborted load leaves its registers undefined, but for the base and the PC (R217 (3), R236 (3)). -/
def freeRegs (m : Mode) (keep : Option (Fin 30)) : List Reg → State → State
  | [], s => s
  | r :: rs, s =>
    if r = 15 ∨ some (physIndex m r) = keep then freeRegs m keep rs s
    else
      let (v, s) := s.takeWord
      freeRegs m keep rs (s.setBankReg m r v)

/-- The restrictions on Rd of a doubleword form, and its alignment: odd Rd makes no claim (D14), R14 is
UNPREDICTABLE, so is an unaligned address with A = 0 (U-G8). -/
def doubleGuard (wb : Bool) (rn rd : Reg) (address : Word) (s : State) (abort ok : Result) : Result :=
  refuseIf (rd.getLsbD 0) .oddRegister
    (refuseIf (decide (rd = 14)) .r15Operand
      (refuseIf (wb && decide (rn = rd + 1)) .registerClash
        (if doubleMisaligned address then if s.cp15.a then abort else .refused .unaligned else ok)))

/-- LDRD (R229). -/
def loadDouble (rn rd : Reg) (m : Addressed) (s : State) : Result :=
  let abort (s' : State) : Result := raiseDataAbort (freeRegs s.mode (s.basePlace rn) [rd, rd + 1] s')
  doubleGuard m.newBase.isSome rn rd m.address s (abort s)
    (match readWords [m.address, m.address + 4] s with
      | .ok [lo, hi] s' => .next (((s'.setReg rd lo).setReg (rd + 1) hi).setReg? rn m.newBase).advance
      | .ok _ s' => abort s'
      | .abort s' => abort s'
      | .stop x => x.result)

/-- The register form of LDRD: the offset register is not one of those loaded (R229). -/
def loadDoubleReg (rm rn rd : Reg) (m : Addressed) (s : State) : Result :=
  refuseIf (decide (rm = rd ∨ rm = rd + 1)) .registerClash (loadDouble rn rd m s)

/-- The memories of one state in another. -/
def State.withMemories (s t : State) : State := { s with itcm := t.itcm, dtcm := t.dtcm, ahb := t.ahb }

/-- An STRD whose second word aborts: the first has been written or not, free (R217 (4)). `s` is the state before the
instruction, `s1` the one before the second word. Where the first is not written, the buffers have drained as far as its write
would have made them (R70). -/
def strdAborted (a v : Word) (s s1 s2 : State) : Result :=
  let (written, s2) := s2.takeBool
  if written then raiseDataAbort s2
  else
    match memWrite false false false .word (a + 4) v (s1.withMemories (s.forcedBy a).betweenAccesses) with
    | .ok _ _ => raiseDataAbort s2
    | .abort s3 => raiseDataAbort (s2.withMemories s3)
    | .stop _ => raiseDataAbort s2

/-- STRD (R230). Where one word aborts, the other may have been written (R217 (4)). Buffered on the AHB, the second word joins
the address entry of the first while that is there (DESIGN CHOICE, entry 19: the spec does not say how many entries an STRD
takes). -/
def storeDouble (rn rd : Reg) (m : Addressed) (s : State) : Result :=
  doubleGuard m.newBase.isSome rn rd m.address s (raiseDataAbort s)
    (match memWrite false false false .word m.address (s.reg rd) s with
      | .stop x => x.result
      | .abort s1 => raiseDataAbort (maybeStore [(m.address + 4, s.reg (rd + 1))] s1)
      | .ok _ s1 =>
        match memWrite false false true .word (m.address + 4) (s.reg (rd + 1)) s1.betweenAccesses with
        | .stop x => x.result
        | .abort s2 => strdAborted m.address (s.reg (rd + 1)) s s1.betweenAccesses s2
        | .ok _ s2 => .next (s2.setReg? rn m.newBase).advance)

/-! ## Swaps (R231, R232) -/

/-- SWP and SWPB: a read and an unbuffered write of one address, with no other agent between them (R60; for a TCM a DESIGN
CHOICE, entry 7); Rd is written last. -/
def swap (size : Size) (c : Cond) (rn rd sbz rm : Reg) : State → Result :=
  onCond c fun s =>
    refuseIf (decide (sbz ≠ 0)) .reservedField
      (refuseIf (usesR15 [rn, rd, rm]) .r15Operand
        (refuseIf (decide (rn = rm ∨ rn = rd)) .registerClash
          ((memRead false size (s.reg rn) s).finish fun w s1 =>
            (memWrite false true false size (s.reg rn) (s.reg rm) s1).finish fun _ s2 =>
              let v := match size with
                | .word => rotateLoaded (s.reg rn) w | .half => w | .byte => w
              .next (s2.setReg rd v).advance)))

/-! ## The instructions -/

/-- PLD, immediate offset: a NOP (R233). -/
def execPldImm (_u : Bool) (_rn : Reg) (_imm : BitVec 12) (s : State) : Result := s.done

/-- PLD, register offset: a NOP (R233), whatever the registers. -/
def execPldReg (_u : Bool) (_rn : Reg) (_sh : BitVec 5) (_k : ShiftKind) (_rm : Reg) (s : State) : Result := s.done

/-- LDRT, immediate offset (R224): post-indexed, marked as a User access. -/
def execLdrtImm (c : Cond) (u : Bool) (rn rd : Reg) (imm : BitVec 12) (s : State) : Result :=
  mode2Imm (loadWord true) true c .postIndexed u rn rd imm s

/-- LDRT, register offset (R224). -/
def execLdrtReg (c : Cond) (u : Bool) (rn rd : Reg) (sh : BitVec 5) (k : ShiftKind) (rm : Reg) (s : State) :
    Result :=
  mode2Reg (loadWord true) true c .postIndexed u rn rd sh k rm s

/-- LDRBT, immediate offset (R224): post-indexed, marked as a User access. -/
def execLdrbtImm (c : Cond) (u : Bool) (rn rd : Reg) (imm : BitVec 12) (s : State) : Result :=
  mode2Imm (loadNarrow true .byte id) true c .postIndexed u rn rd imm s

/-- LDRBT, register offset (R224). -/
def execLdrbtReg (c : Cond) (u : Bool) (rn rd : Reg) (sh : BitVec 5) (k : ShiftKind) (rm : Reg) (s : State) :
    Result :=
  mode2Reg (loadNarrow true .byte id) true c .postIndexed u rn rd sh k rm s

/-- STRT, immediate offset (R224): post-indexed, marked as a User access. -/
def execStrtImm (c : Cond) (u : Bool) (rn rd : Reg) (imm : BitVec 12) (s : State) : Result :=
  mode2Imm (storeOne true .word) true c .postIndexed u rn rd imm s

/-- STRT, register offset (R224). -/
def execStrtReg (c : Cond) (u : Bool) (rn rd : Reg) (sh : BitVec 5) (k : ShiftKind) (rm : Reg) (s : State) :
    Result :=
  mode2Reg (storeOne true .word) true c .postIndexed u rn rd sh k rm s

/-- STRBT, immediate offset (R224): post-indexed, marked as a User access. -/
def execStrbtImm (c : Cond) (u : Bool) (rn rd : Reg) (imm : BitVec 12) (s : State) : Result :=
  mode2Imm (storeOne true .byte) true c .postIndexed u rn rd imm s

/-- STRBT, register offset (R224). -/
def execStrbtReg (c : Cond) (u : Bool) (rn rd : Reg) (sh : BitVec 5) (k : ShiftKind) (rm : Reg) (s : State) :
    Result :=
  mode2Reg (storeOne true .byte) true c .postIndexed u rn rd sh k rm s

/-- LDR, immediate offset (R220). -/
def execLdrImm (c : Cond) (x : Indexing) (u : Bool) (rn rd : Reg) (imm : BitVec 12) (s : State) : Result :=
  mode2Imm (loadWord false) false c x u rn rd imm s

/-- LDR, register offset (R220). -/
def execLdrReg (c : Cond) (x : Indexing) (u : Bool) (rn rd : Reg) (sh : BitVec 5) (k : ShiftKind) (rm : Reg)
    (s : State) : Result :=
  mode2Reg (loadWord false) false c x u rn rd sh k rm s

/-- LDRB, immediate offset (R222). -/
def execLdrbImm (c : Cond) (x : Indexing) (u : Bool) (rn rd : Reg) (imm : BitVec 12) (s : State) : Result :=
  mode2Imm (loadNarrow false .byte id) true c x u rn rd imm s

/-- LDRB, register offset (R222). -/
def execLdrbReg (c : Cond) (x : Indexing) (u : Bool) (rn rd : Reg) (sh : BitVec 5) (k : ShiftKind) (rm : Reg)
    (s : State) : Result :=
  mode2Reg (loadNarrow false .byte id) true c x u rn rd sh k rm s

/-- STR, immediate offset (R221). -/
def execStrImm (c : Cond) (x : Indexing) (u : Bool) (rn rd : Reg) (imm : BitVec 12) (s : State) : Result :=
  mode2Imm (storeOne false .word) false c x u rn rd imm s

/-- STR, register offset (R221). -/
def execStrReg (c : Cond) (x : Indexing) (u : Bool) (rn rd : Reg) (sh : BitVec 5) (k : ShiftKind) (rm : Reg)
    (s : State) : Result :=
  mode2Reg (storeOne false .word) false c x u rn rd sh k rm s

/-- STRB, immediate offset (R223). -/
def execStrbImm (c : Cond) (x : Indexing) (u : Bool) (rn rd : Reg) (imm : BitVec 12) (s : State) : Result :=
  mode2Imm (storeOne false .byte) true c x u rn rd imm s

/-- STRB, register offset (R223). -/
def execStrbReg (c : Cond) (x : Indexing) (u : Bool) (rn rd : Reg) (sh : BitVec 5) (k : ShiftKind) (rm : Reg)
    (s : State) : Result :=
  mode2Reg (storeOne false .byte) true c x u rn rd sh k rm s

/-- STRH, immediate offset (R226). -/
def execStrhImm (c : Cond) (p u w : Bool) (rn rd : Reg) (imm : BitVec 8) (s : State) : Result :=
  mode3Imm storeHalf c p u w rn rd imm s

/-- STRH, register offset (R226). -/
def execStrhReg (c : Cond) (p u w : Bool) (rn rd sbz rm : Reg) (s : State) : Result :=
  mode3Reg storeHalf c p u w rn rd sbz rm s

/-- LDRD, immediate offset (R229). -/
def execLdrdImm (c : Cond) (p u w : Bool) (rn rd : Reg) (imm : BitVec 8) (s : State) : Result :=
  mode3Imm loadDouble c p u w rn rd imm s

/-- LDRD, register offset (R229). -/
def execLdrdReg (c : Cond) (p u w : Bool) (rn rd sbz rm : Reg) (s : State) : Result :=
  mode3Reg (loadDoubleReg rm) c p u w rn rd sbz rm s

/-- STRD, immediate offset (R230). -/
def execStrdImm (c : Cond) (p u w : Bool) (rn rd : Reg) (imm : BitVec 8) (s : State) : Result :=
  mode3Imm storeDouble c p u w rn rd imm s

/-- STRD, register offset (R230). -/
def execStrdReg (c : Cond) (p u w : Bool) (rn rd sbz rm : Reg) (s : State) : Result :=
  mode3Reg storeDouble c p u w rn rd sbz rm s

/-- LDRH, immediate offset (R225). -/
def execLdrhImm (c : Cond) (p u w : Bool) (rn rd : Reg) (imm : BitVec 8) (s : State) : Result :=
  mode3Imm (loadNarrow false .half id) c p u w rn rd imm s

/-- LDRH, register offset (R225). -/
def execLdrhReg (c : Cond) (p u w : Bool) (rn rd sbz rm : Reg) (s : State) : Result :=
  mode3Reg (loadNarrow false .half id) c p u w rn rd sbz rm s

/-- LDRSB, immediate offset (R227). -/
def execLdrsbImm (c : Cond) (p u w : Bool) (rn rd : Reg) (imm : BitVec 8) (s : State) : Result :=
  mode3Imm (loadNarrow false .byte signByte) c p u w rn rd imm s

/-- LDRSB, register offset (R227). -/
def execLdrsbReg (c : Cond) (p u w : Bool) (rn rd sbz rm : Reg) (s : State) : Result :=
  mode3Reg (loadNarrow false .byte signByte) c p u w rn rd sbz rm s

/-- LDRSH, immediate offset (R228). -/
def execLdrshImm (c : Cond) (p u w : Bool) (rn rd : Reg) (imm : BitVec 8) (s : State) : Result :=
  mode3Imm (loadNarrow false .half signHalf) c p u w rn rd imm s

/-- LDRSH, register offset (R228). -/
def execLdrshReg (c : Cond) (p u w : Bool) (rn rd sbz rm : Reg) (s : State) : Result :=
  mode3Reg (loadNarrow false .half signHalf) c p u w rn rd sbz rm s

/-- SWP (R231). -/
def execSwp (c : Cond) (rn rd sbz rm : Reg) (s : State) : Result := swap .word c rn rd sbz rm s

/-- SWPB (R232). -/
def execSwpb (c : Cond) (rn rd sbz rm : Reg) (s : State) : Result := swap .byte c rn rd sbz rm s

end Sys2Proof.Machine
end

