-- ==== Sys2Proof/Machine/Coprocessor.lean ====
section
/-! DEFINITION. The coprocessor instructions as the core sees them (spec/41_coprocessor.md rules R145 to R161, R168;
spec/40_cp15_system_control.md rule R126). An external coprocessor is a component of its own in `State.cp`: it receives the
instructions and words addressed to it, and drives handshake cycles. -/

namespace Sys2Proof.Machine

/-! ## The coprocessors (R145, R146, R150) -/

/-- The handshake cycles that the coprocessor of a number will drive; a number that none answers to drives ABSENT. -/
def State.cpReplies (s : State) (n : Reg) : List CpReply :=
  match s.cp.units.find? (fun u => decide (u.num = n)) with
  | none => []
  | some u => u.replies

/-- Change the coprocessor of a number. -/
def State.mapCp (s : State) (n : Reg) (f : CpUnit → CpUnit) : State :=
  { s with cp := { s.cp with units := s.cp.units.map fun u => if u.num = n then f u else u } }

/-- Replace the handshake cycles to come. -/
def State.setReplies (s : State) (n : Reg) (rs : List CpReply) : State := s.mapCp n fun u => { u with replies := rs }

/-- The coprocessor of a number receives something. -/
def State.sendCp (s : State) (n : Reg) (x : CpInput) : State := s.mapCp n fun u => { u with log := u.log ++ [x] }

/-- Replace the instruction that waits. -/
def State.setWaiting (s : State) (w : Option CpWait) : State := { s with cp := { s.cp with waiting := w } }

/-- The coprocessor that an instruction word is addressed to. -/
def cpNumber (w : Word) : Reg := w.extractLsb' 8 4

/-- An interrupt comes before the instruction that waits: CPPASS goes LOW and it is abandoned (R151). Words that an LDC or STC
has moved by GO before the WAIT stay moved, and the restarted instruction begins with its first word (DESIGN CHOICE, entry 27:
R151 knows no abandoned instruction that has moved any). -/
def State.abandonCp (s : State) : State :=
  match s.cp.waiting with
  | none => s
  | some p => (s.sendCp (cpNumber p.instr) .abandon).setWaiting none

/-! ## The handshake (R148, R149, R151) -/

/-- What one cycle of a coprocessor instruction moves: given how many words went before and the word on CPDIN, the word
moved. -/
abbrev Transfer := Nat → Word → State → Access Word

/-- How the handshake cycles of one step end: the instruction is complete, with the words moved; it is kept waiting; no
coprocessor accepts it; one of its accesses aborts; the machine stops. -/
inductive Handshake
  | done (words : List Word) (s : State)
  | wait (words : List Word) (s : State)
  | absent (s : State)
  | abort (s : State)
  | stop (x : Stop)

/-- The state machine of R148, over the cycles that the coprocessor will drive. A burst ends with its 16th word at the latest
(R146); `limit` 0 is no limit. A coprocessor with nothing left to drive is ABSENT (DESIGN CHOICE, entry 27). -/
def handshakeCycles (n : Reg) (limit : Nat) (move : Transfer) : List CpReply → List Word → State → Handshake
  | [], _, s => .absent s
  | .absent :: rs, _, s => .absent (s.setReplies n rs)
  | .wait :: rs, ws, s => .wait ws (s.setReplies n rs)
  | .waitForever :: _, ws, s => .wait ws s
  | .last w :: rs, ws, s =>
    match move ws.length w (s.setReplies n rs) with
    | .ok d s => .done (ws ++ [d]) s
    | .abort s => .abort s
    | .stop x => .stop x
  | .go w :: rs, ws, s =>
    match move ws.length w (s.setReplies n rs) with
    | .ok d s => if ws.length + 1 = limit then .done (ws ++ [d]) s else handshakeCycles n limit move rs (ws ++ [d]) s
    | .abort s => .abort s
    | .stop x => .stop x

/-- What CHSDE or CHSEX shows in a cycle (R148). -/
def CpReply.code : CpReply → BitVec 2
  | .absent => 0b10
  | .wait => 0b00
  | .waitForever => 0b00
  | .go _ => 0b01
  | .last _ => 0b11

/-- The cycle at which the handshake of R148 ends if no access aborts, `k` words having gone before. -/
def lastDriven (limit : Nat) : Nat → List CpReply → CpReply
  | _, [] => .absent
  | _, .absent :: _ => .absent
  | _, .wait :: _ => .wait
  | _, .waitForever :: _ => .waitForever
  | _, .last w :: _ => .last w
  | k, .go w :: rs => if k + 1 = limit then .go w else lastDriven limit (k + 1) rs

/-- The words that an instruction has moved: those it moved before it had to wait, or none, and then the coprocessor
receives it now. -/
def beginCp (n : Reg) (word : Word) (s : State) : List Word × State :=
  match s.cp.waiting with
  | some p => if p.instr = word then (p.moved, s) else ([], s.sendCp n (.instr word s.privileged))
  | none => ([], s.sendCp n (.instr word s.privileged))

/-- A coprocessor instruction: ABSENT takes the Undefined Instruction exception (R149), WAIT leaves it in Execute for the
next step (an interrupt can come first, R151), an abort takes the Data Abort. -/
def coprocessorInstr (n : Reg) (i : Instr) (limit : Nat) (move : Transfer) (k : List Word → State → Result) (s : State) :
    Result :=
  let word := Code.word (encode i)
  let (moved, s) := beginCp n word s
  match handshakeCycles n limit move (s.cpReplies n) moved s with
  | .done ws s => k ws (s.setWaiting none)
  | .wait ws s => .next (s.setWaiting (some { instr := word, moved := ws }))
  | .absent s => raiseUndefined (s.setWaiting none)
  | .abort s => raiseDataAbort (s.setWaiting none)
  | .stop x => x.result

/-- The words on CPDIN, and no access. -/
def takeCpdin : Transfer := fun _ w s => .ok w s

/-- A form that is UNPREDICTABLE (U-G14) stops once a coprocessor accepts it; before that it is like any other (R149;
DEDUCED, entry 45). -/
def unlessBad (bad : Option Refusal) (move : Transfer) : Transfer :=
  match bad with
  | none => move
  | some r => fun _ _ _ => .stop (.refuse r)

/-- R15 among the registers of a form that excludes it. -/
def badR15 (t : Bool) : Option Refusal := if t then some .r15Operand else none

/-! ## The generic instructions -/

/-- CDP (R154): no register, flag or memory is read or written. -/
def coprocessorOperation (n : Reg) (i : Instr) (s : State) : Result :=
  coprocessorInstr n i 0 takeCpdin (fun _ s => s.done) s

/-- MCR and MCRR (R157, R159): the registers go to the coprocessor, in order; R15 is UNPREDICTABLE (U-G14). -/
def moveToCoprocessor (n : Reg) (i : Instr) (rs : List Reg) (s : State) : Result :=
  coprocessorInstr n i 0 (unlessBad (badR15 (usesR15 rs)) takeCpdin)
    (fun _ s => (rs.foldl (fun t r => t.sendCp n (.data (s.reg r))) s).done) s

/-- A word read by MRC (R158): with Rd = R15 its bits [31:28] go into N, Z, C, V. -/
def writeFromCoprocessor (rd : Reg) (d : Word) (s : State) : Result :=
  if rd = 15 then
    .next (s.setCpsr (Psr.setNzcv s.cpsr (d.getLsbD 31) (d.getLsbD 30) (d.getLsbD 29) (d.getLsbD 28))).advance
  else .next (s.setReg rd d).advance

/-- MRC (R158): the word of the last cycle. -/
def moveFromCoprocessor (n : Reg) (i : Instr) (rd : Reg) (s : State) : Result :=
  coprocessorInstr n i 0 takeCpdin (fun ws s => writeFromCoprocessor rd (ws.getLast?.getD 0) s) s

/-- The first word of an MRRC: the word of the cycle before the last; a coprocessor that drives only one leaves it open
(N-41-2). -/
def firstOfTwo (ws : List Word) (s : State) : Word × State :=
  match ws.dropLast.getLast? with
  | some w => (w, s)
  | none => s.takeWord

/-- MRRC (R160): the first word to Rd, the second to Rn; R15 and Rd = Rn are UNPREDICTABLE (U-G14). -/
def moveTwoFromCoprocessor (n : Reg) (i : Instr) (rd rn : Reg) (s : State) : Result :=
  let bad := if usesR15 [rn, rd] then some .r15Operand else if rd = rn then some .registerClash else none
  coprocessorInstr n i 0 (unlessBad bad takeCpdin)
    (fun ws s =>
      let (w, s) := firstOfTwo ws s
      .next ((s.setReg rd w).setReg rn (ws.getLast?.getD 0)).advance) s

/-- The address of an LDC or STC and the new base (R155). -/
def cpAddress (a : CpIndexing) (base : Word) (imm : BitVec 8) : Addressed :=
  match a with
  | .offset u => addressMode2 .offset u base (scaled imm 4)
  | .preIndexed u => addressMode2 .preIndexed u base (scaled imm 4)
  | .postIndexed u => addressMode2 .postIndexed u base (scaled imm 4)
  | .unindexed => ⟨base, none⟩

/-- A form with write-back to R15 is UNPREDICTABLE (R155, U-G14). -/
def badBase (m : Addressed) (rn : Reg) : Option Refusal := badR15 (m.newBase.isSome && decide (rn = 15))

/-- The address of a further word of an LDC or STC. -/
def cpWordAddress (start : Word) (k : Nat) : Word := start + BitVec.ofNat 32 (4 * k)

/-- Before each further word of a transfer the other agents act (R60). -/
def State.beforeWord (s : State) (k : Nat) : State := if k = 0 then s else s.betweenAccesses

/-- LDC (R155): each word read is given to the coprocessor. On an abort the base keeps its value. -/
def loadCoprocessor (n : Reg) (i : Instr) (a : CpIndexing) (rn : Reg) (imm : BitVec 8) (s : State) : Result :=
  let m := cpAddress a (s.reg rn) imm
  coprocessorInstr n i 16
    (unlessBad (badBase m rn) fun k _ s =>
      (memRead false .word (cpWordAddress m.address k) (s.beforeWord k)).bind fun w s => .ok w (s.sendCp n (.data w)))
    (fun _ s => .next (s.setReg? rn m.newBase).advance) s

/-- STC (R156). Words written before an abort stay written, and no further word is. -/
def storeCoprocessor (n : Reg) (i : Instr) (a : CpIndexing) (rn : Reg) (imm : BitVec 8) (s : State) : Result :=
  let m := cpAddress a (s.reg rn) imm
  coprocessorInstr n i 16
    (unlessBad (badBase m rn) fun k w s =>
      (memWrite false false (decide (k ≠ 0)) .word (cpWordAddress m.address k) w (s.beforeWord k)).bind fun _ s => .ok w s)
    (fun _ s => .next (s.setReg? rn m.newBase).advance) s

/-- The cond = 1111 forms to p15 and p14: no claim (R126, D15). -/
def externalOnly (cp : Reg) (k : Result) : Result := refuseIf (!externalCp cp) .internalCoprocessor k

/-! ## The instructions -/

/-- CDP (R154). -/
def execCdp (c : Cond) (op1 : BitVec 4) (crn crd cp : Reg) (op2 : BitVec 3) (crm : Reg) (s : State) : Result :=
  onCond c (coprocessorOperation cp (.cdp c op1 crn crd cp op2 crm)) s

/-- LDC (R155). -/
def execLdc (c : Cond) (a : CpIndexing) (n : Bool) (rn crd cp : Reg) (imm : BitVec 8) (s : State) : Result :=
  onCond c (loadCoprocessor cp (.ldc c a n rn crd cp imm) a rn imm) s

/-- STC (R156). -/
def execStc (c : Cond) (a : CpIndexing) (n : Bool) (rn crd cp : Reg) (imm : BitVec 8) (s : State) : Result :=
  onCond c (storeCoprocessor cp (.stc c a n rn crd cp imm) a rn imm) s

/-- MCR (R157). -/
def execMcr (c : Cond) (op1 : BitVec 3) (crn rd cp : Reg) (op2 : BitVec 3) (crm : Reg) (s : State) : Result :=
  onCond c (moveToCoprocessor cp (.mcr c op1 crn rd cp op2 crm) [rd]) s

/-- MRC (R158). -/
def execMrc (c : Cond) (op1 : BitVec 3) (crn rd cp : Reg) (op2 : BitVec 3) (crm : Reg) (s : State) : Result :=
  onCond c (moveFromCoprocessor cp (.mrc c op1 crn rd cp op2 crm) rd) s

/-- MCRR (R159): R[Rd], then R[Rn]. -/
def execMcrr (c : Cond) (rn rd cp : Reg) (op : BitVec 4) (crm : Reg) (s : State) : Result :=
  onCond c (moveToCoprocessor cp (.mcrr c rn rd cp op crm) [rd, rn]) s

/-- MRRC (R160). -/
def execMrrc (c : Cond) (rn rd cp : Reg) (op : BitVec 4) (crm : Reg) (s : State) : Result :=
  onCond c (moveTwoFromCoprocessor cp (.mrrc c rn rd cp op crm) rd rn) s

/-- CDP2 (R161). -/
def execCdp2 (op1 : BitVec 4) (crn crd cp : Reg) (op2 : BitVec 3) (crm : Reg) (s : State) : Result :=
  externalOnly cp (coprocessorOperation cp (.cdp2 op1 crn crd cp op2 crm) s)

/-- LDC2 (R161). -/
def execLdc2 (a : CpIndexing) (n : Bool) (rn crd cp : Reg) (imm : BitVec 8) (s : State) : Result :=
  externalOnly cp (loadCoprocessor cp (.ldc2 a n rn crd cp imm) a rn imm s)

/-- STC2 (R161). -/
def execStc2 (a : CpIndexing) (n : Bool) (rn crd cp : Reg) (imm : BitVec 8) (s : State) : Result :=
  externalOnly cp (storeCoprocessor cp (.stc2 a n rn crd cp imm) a rn imm s)

/-- MCR2 (R161). -/
def execMcr2 (op1 : BitVec 3) (crn rd cp : Reg) (op2 : BitVec 3) (crm : Reg) (s : State) : Result :=
  externalOnly cp (moveToCoprocessor cp (.mcr2 op1 crn rd cp op2 crm) [rd] s)

/-- MRC2 (R161). -/
def execMrc2 (op1 : BitVec 3) (crn rd cp : Reg) (op2 : BitVec 3) (crm : Reg) (s : State) : Result :=
  externalOnly cp (moveFromCoprocessor cp (.mrc2 op1 crn rd cp op2 crm) rd s)

/-! ## What the interface shows -/

/-- The coprocessor that a generic instruction is addressed to, and how many words it moves at most (0: no limit). -/
def cpOf : Instr → Option (Reg × Nat)
  | .cdp _ _ _ _ n _ _ => some (n, 0)
  | .cdp2 _ _ _ n _ _ => some (n, 0)
  | .mcr _ _ _ _ n _ _ => some (n, 0)
  | .mcr2 _ _ _ n _ _ => some (n, 0)
  | .mrc _ _ _ _ n _ _ => some (n, 0)
  | .mrc2 _ _ _ n _ _ => some (n, 0)
  | .mcrr _ _ _ n _ _ => some (n, 0)
  | .mrrc _ _ _ n _ _ => some (n, 0)
  | .ldc _ _ _ _ _ n _ => some (n, 16)
  | .ldc2 _ _ _ _ n _ => some (n, 16)
  | .stc _ _ _ _ _ n _ => some (n, 16)
  | .stc2 _ _ _ _ n _ => some (n, 16)
  | _ => none

/-- The words that the instruction in Execute has moved. -/
def State.cpMoved (s : State) : Nat :=
  match s.cp.waiting with
  | none => 0
  | some p => p.moved.length

/-- The last handshake cycle of an instruction, if a coprocessor is asked. -/
def State.cpEnds (s : State) (i : Instr) : Option CpReply :=
  (cpOf i).map fun x => lastDriven x.2 s.cpMoved (s.cpReplies x.1)

/-- The first handshake cycle of an instruction. -/
def State.cpBegins (s : State) (i : Instr) : Option CpReply := (cpOf i).map fun x => (s.cpReplies x.1).headD .absent

/-! ## Forms addressed to the internal coprocessors that the spec does not describe (R126, R168, D15) -/

/-- LDC, STC, MCRR, MRRC to p15. -/
def execP15Transfer (c : Cond) (_hi : BitVec 13) (_lo : BitVec 8) (s : State) : Result :=
  onCond c (fun _ => .refused .internalCoprocessor) s

/-- CDP to p15. -/
def execP15Cdp (c : Cond) (_op1 : BitVec 4) (_crn _crd : Reg) (_op2 : BitVec 3) (_crm : Reg) (s : State) : Result :=
  onCond c (fun _ => .refused .internalCoprocessor) s

/-- LDC, STC, MCRR, MRRC to p14. -/
def execP14Transfer (c : Cond) (_hi : BitVec 13) (_lo : BitVec 8) (s : State) : Result :=
  onCond c (fun _ => .refused .internalCoprocessor) s

/-- CDP to p14. -/
def execP14Cdp (c : Cond) (_op1 : BitVec 4) (_crn _crd : Reg) (_op2 : BitVec 3) (_crm : Reg) (s : State) : Result :=
  onCond c (fun _ => .refused .internalCoprocessor) s

end Sys2Proof.Machine
end

