-- ==== Sys2Proof/Machine/Cp15.lean ====
section
/-! DEFINITION. The CP15 and CP14 instructions (spec/40_cp15_system_control.md rules R123 to R143;
spec/41_coprocessor.md rules R162 to R168). -/

namespace Sys2Proof.Machine

/-! ## Shared operations -/

/-- Every MCR and MRC to p15: in User mode the Undefined Instruction exception (R124, D5); Rd = R15 makes no claim
(R123). -/
def cp15Op (c : Cond) (rd : Reg) (k : State → Result) : State → Result :=
  onCond c fun s => if s.privileged then refuseIf (usesR15 [rd]) .r15Operand (k s) else raiseUndefined s

/-- An MRC of p15: Rd gets the value read. -/
def cp15Read (c : Cond) (rd : Reg) (read : State → Word × State) : State → Result :=
  cp15Op c rd fun s => .next (((read s).2).setReg rd (read s).1).advance

/-- An operation that may stop, as an instruction. -/
def checkedDone : Checked → Result
  | .ok s => s.done
  | .error x => x.result

/-- An MCR of p15 with the value of Rd. -/
def cp15Write (c : Cond) (rd : Reg) (write : Word → State → Checked) : State → Result :=
  cp15Op c rd fun s => checkedDone (write (s.reg rd) s)

/-- The ID Code Register (R30, R127). -/
def idCode : Word := 0x41259661

/-- The TCM Size Register (R31, R128). -/
def State.tcmSizeReg (s : State) : Word :=
  0#9 ++ s.pins.dtcmSize ++ 0#3 ++ BitVec.ofBool (decide (s.pins.dtcmSize = 0)) ++ 0#3 ++ s.pins.itcmSize ++ 0#3 ++
    BitVec.ofBool (decide (s.pins.itcmSize = 0)) ++ 0#2

/-- The named bits of the Control Register at their places (R33). -/
def Cp15.control (c : Cp15) : Word :=
  0#16 ++ nib c.lt false c.v c.i ++ 0#4 ++ nib c.b false false false ++ nib c.w c.d c.a false

/-- Which bits of the Control Register a read states (R129). -/
def controlMask : Word := 0x0000B08E

/-- Read the Control Register (R129): the reserved bits are free (U-T4, U-T5). -/
def readControl (s : State) : Word × State :=
  (partlyFree s.cp15.control controlMask s.takeWord.1, s.takeWord.2)

/-- The preconditions of a new value for a TCM enable: an enabled TCM exists (D9) and its BIST enable is clear (R130);
a TCM that is disabled has an empty write buffer (R68). -/
def enableGuard (side : Side) (on : Bool) (s : State) (k : Checked) : Checked :=
  failIf (on && decide (s.pins.tcmSize side = 0)) .tcmAbsent
    (failIf (on && (s.bist side).enable) .bistRules
      (failIf (!on && s.cp15.tcmOn side && !(s.tcm side).buf.isEmpty) .tcmBufferNotEmpty k))

/-- Write the Control Register (R130): the other bits are ignored. Clearing W causes the data in the AHB buffer to be written
(R70; without waiting for it, DESIGN CHOICE, entry 18). -/
def writeControl (v : Word) (s : State) : Checked :=
  enableGuard .itcm (v.getLsbD 12) s
    (enableGuard .dtcm (v.getLsbD 2) s
      (.ok { s with cp15 := { s.cp15 with lt := v.getLsbD 15, v := v.getLsbD 13, i := v.getLsbD 12, b := v.getLsbD 7,
                                          w := v.getLsbD 3, d := v.getLsbD 2, a := v.getLsbD 1 }
                    ahb := if v.getLsbD 3 then s.ahb else s.ahb.flush }))

/-- The named bits of the Configuration Control Register at their places (R37). -/
def Cp15.config (c : Cp15) : Word :=
  0#12 ++ nib false c.iOrder c.dOrder c.ipbOff ++ 0#12 ++ nib false c.fm c.im false

/-- Which bits of the Configuration Control Register a read states (R136). -/
def configMask : Word := 0x00070006

/-- Read the Configuration Control Register (R136): the other bits are not stated. -/
def readConfig (s : State) : Word × State :=
  (partlyFree s.cp15.config configMask s.takeWord.1, s.takeWord.2)

/-- Write the Configuration Control Register (R137): a one in a Should Be Zero bit is UNPREDICTABLE (U-T6). An order bit that
becomes set over a buffer with data makes the next access to that TCM wait (R37). -/
def writeConfig (v : Word) (s : State) : Checked :=
  failIf (decide (v &&& ~~~configMask ≠ 0)) .cp15ReservedBits
    (.ok { s with
      itcm := s.itcm.setHold (v.getLsbD 18) s.cp15.iOrder
      dtcm := s.dtcm.setHold (v.getLsbD 17) s.cp15.dOrder
      cp15 := { s.cp15 with iOrder := v.getLsbD 18, dOrder := v.getLsbD 17, ipbOff := v.getLsbD 16, fm := v.getLsbD 2,
                            im := v.getLsbD 1 } })

/-- Wait for interrupt (R132): the core stops after this instruction, and the data in the AHB write buffer is written (R70;
without waiting for it, DESIGN CHOICE, entry 18). -/
def waitForInterrupt (s : State) : State := { s with standby := true, ahb := s.ahb.flush }

/-- Drain write buffer (R75, R133). -/
def drainWriteBuffer (s : State) : Result :=
  if s.drainHangs then .fault .accessNeverCompletes else s.drainAll.done

/-- Read a BIST General Register (R142). -/
def bistGeneralRead (side : Side) (c : Cond) (rd : Reg) : State → Result :=
  cp15Op c rd fun s =>
    if peekHangs s side then .fault .accessNeverCompletes
    else .next (((bistReadGeneral side s).2).setReg rd (bistReadGeneral side s).1).advance

/-! ## c0, c1 -/

/-- Read TCM Size (R128). -/
def execMrcTcmSize (c : Cond) (rd : Reg) (s : State) : Result := cp15Read c rd (fun s => (s.tcmSizeReg, s)) s

/-- Read ID Code (R127): any Opcode_2 but 2. -/
def execMrcIdCode (c : Cond) (rd : Reg) (_op2 : BitVec 3) (s : State) : Result := cp15Read c rd (fun s => (idCode, s)) s

/-- Read Control (R129). -/
def execMrcControl (c : Cond) (rd : Reg) (s : State) : Result := cp15Read c rd readControl s

/-- Write Control (R130). -/
def execMcrControl (c : Cond) (rd : Reg) (s : State) : Result := cp15Write c rd writeControl s

/-! ## c7 -/

/-- Wait for interrupt (R132). -/
def execMcrWaitForInterrupt (c : Cond) (rd : Reg) (s : State) : Result :=
  cp15Op c rd (fun s => (waitForInterrupt s).done) s

/-- Wait for interrupt, the legacy encoding (R132). -/
def execMcrWaitForInterruptLegacy (c : Cond) (rd : Reg) (s : State) : Result :=
  cp15Op c rd (fun s => (waitForInterrupt s).done) s

/-- Drain write buffer (R133): all three buffers are empty afterwards. -/
def execMcrDrainWriteBuffer (c : Cond) (rd : Reg) (s : State) : Result := cp15Op c rd drainWriteBuffer s

/-! ## c13 -/

/-- Read Trace Process Identifier (R134). -/
def execMrcProcId (c : Cond) (rd _crm : Reg) (s : State) : Result := cp15Read c rd (fun s => (s.cp15.procId, s)) s

/-- Write Trace Process Identifier (R135): ETMPROCIDWR is HIGH until the next step. -/
def execMcrProcId (c : Cond) (rd _crm : Reg) (s : State) : Result :=
  cp15Write c rd (fun v s => .ok { s with cp15 := { s.cp15 with procId := v, procIdWr := true } }) s

/-! ## c15 -/

/-- Read Configuration Control (R136). -/
def execMrcConfigControl (c : Cond) (rd : Reg) (s : State) : Result := cp15Read c rd readConfig s

/-- Write Configuration Control (R137). -/
def execMcrConfigControl (c : Cond) (rd : Reg) (s : State) : Result := cp15Write c rd writeConfig s

/-- Read BIST Control (R138). -/
def execMrcBistControl (c : Cond) (rd : Reg) (s : State) : Result := cp15Read c rd readBistControl s

/-- Write BIST Control (R139). -/
def execMcrBistControl (c : Cond) (rd : Reg) (s : State) : Result := cp15Write c rd bistWriteControl s

/-- Read Instruction BIST Address (R140). -/
def execMrcIBistAddress (c : Cond) (rd : Reg) (s : State) : Result := cp15Read c rd (bistReadAddress .itcm) s

/-- Write Instruction BIST Address (R141). -/
def execMcrIBistAddress (c : Cond) (rd : Reg) (s : State) : Result :=
  cp15Write c rd (bistWriteAddress .itcm) s

/-- Read Instruction BIST General (R142). -/
def execMrcIBistGeneral (c : Cond) (rd : Reg) (s : State) : Result := bistGeneralRead .itcm c rd s

/-- Write Instruction BIST General (R143). -/
def execMcrIBistGeneral (c : Cond) (rd : Reg) (s : State) : Result :=
  cp15Write c rd (bistWriteGeneral .itcm) s

/-- Read Data BIST Address (R140). -/
def execMrcDBistAddress (c : Cond) (rd : Reg) (s : State) : Result := cp15Read c rd (bistReadAddress .dtcm) s

/-- Write Data BIST Address (R141). -/
def execMcrDBistAddress (c : Cond) (rd : Reg) (s : State) : Result :=
  cp15Write c rd (bistWriteAddress .dtcm) s

/-- Read Data BIST General (R142). -/
def execMrcDBistGeneral (c : Cond) (rd : Reg) (s : State) : Result := bistGeneralRead .dtcm c rd s

/-- Write Data BIST General (R143). -/
def execMcrDBistGeneral (c : Cond) (rd : Reg) (s : State) : Result :=
  cp15Write c rd (bistWriteGeneral .dtcm) s

/-- MCR and MRC to p15 that R123 does not list: in a privileged mode no claim (R125, U-T1 to U-T3), in User mode the
Undefined Instruction exception (R124). -/
def execP15Other (c : Cond) (_l : Bool) (_op1 : BitVec 3) (_crn _rd : Reg) (_op2 : BitVec 3) (_crm : Reg) (s : State) :
    Result :=
  onCond c (fun s => if s.privileged then .refused .cp15Unlisted else raiseUndefined s) s

/-! ## CP14 -/

/-- An access to p14: in User mode no claim (D5, R162). -/
def cp14Op (c : Cond) (k : State → Result) : State → Result :=
  onCond c fun s => refuseIf (!s.privileged) .cp14User (k s)

/-- Read the status register (R163): ICE_VERSION, 26 free bits (U-T10), W, R. -/
def execMrcCommsStatus (c : Cond) (rd : Reg) (s : State) : Result :=
  cp14Op c (fun s =>
    let (free, s) := s.takeWord
    writeFromCoprocessor rd
      (Config.iceVersion ++ free.extractLsb' 2 26 ++ BitVec.ofBool s.dcc.w ++ BitVec.ofBool s.dcc.r) s) s

/-- Read the Data Read Register (R164): clears R. -/
def execMrcCommsData (c : Cond) (rd : Reg) (s : State) : Result :=
  cp14Op c (fun s => writeFromCoprocessor rd s.dcc.readData { s with dcc := { s.dcc with r := false } }) s

/-- Write the Data Write Register (R165): sets W. Rd = R15 is UNPREDICTABLE (R157). With W set already the data that nobody has
read is overwritten (DESIGN CHOICE, entry 48: R165 says so, R337 and N-61-6 leave it open). -/
def execMcrCommsData (c : Cond) (rd : Reg) (s : State) : Result :=
  cp14Op c (fun s => refuseIf (usesR15 [rd]) .r15Operand
    ({ s with dcc := { s.dcc with writeData := s.reg rd, w := true } } : State).done) s

/-- Read the Monitor Mode Debug Status Register (R166). -/
def execMrcMonitorStatus (c : Cond) (rd : Reg) (s : State) : Result :=
  cp14Op c (fun s => writeFromCoprocessor rd (bitWord s.dcc.dbgAbt) s) s

/-- Write the Monitor Mode Debug Status Register (R167): bit 0 only. -/
def execMcrMonitorStatus (c : Cond) (rd : Reg) (s : State) : Result :=
  cp14Op c (fun s => refuseIf (usesR15 [rd]) .r15Operand
    ({ s with dcc := { s.dcc with dbgAbt := (s.reg rd).getLsbD 0 } } : State).done) s

/-- Everything else addressed to p14: no claim (R168). -/
def execP14Other (c : Cond) (_l : Bool) (_op1 : BitVec 3) (_crn _rd : Reg) (_op2 : BitVec 3) (_crm : Reg) (s : State) :
    Result :=
  onCond c (fun _ => .refused .cp14Unlisted) s

end Sys2Proof.Machine
end

