-- ==== Sys2Proof/Machine/DataProcessing.lean ====
section
/-! DEFINITION. The ARM data-processing instructions (spec/42_arm_data_processing.md). Each meaning is the template of
R171 with its operation and its operand form. -/

namespace Sys2Proof.Machine

/-- The template of R171 for an operation that writes Rd. With Rd = R15 it is a branch, whose target is the result modulo 2^32
(DESIGN CHOICE, entry 16), and with S = 1 an exception return (R325). -/
def aluWrite (op : AluOp) (sf : Bool) (rn rd : Reg) (sh : ShifterOut) (s : State) : Result :=
  let o := op.compute (s.reg rn) sh.value sh.carry s.cpsr
  if rd = 15 then if sf then exceptionReturn o.result s else writePcArm o.result s
  else if sf then .next ((s.setReg rd o.result).setFlags o).advance
  else .next (s.setReg rd o.result).advance

/-- The template of R171 for TST, TEQ, CMP and CMN: flags only. -/
def aluTest (op : AluOp) (rn : Reg) (sh : ShifterOut) (s : State) : Result :=
  .next (s.setFlags (op.compute (s.reg rn) sh.value sh.carry s.cpsr)).advance

/-- An operation with an immediate-shift operand. -/
def aluShift (op : AluOp) (c : Cond) (sf : Bool) (rn rd : Reg) (sh : BitVec 5) (k : ShiftKind) (rm : Reg) :
    State → Result :=
  onCond c fun s => aluWrite op sf rn rd (immShiftOperand sh k rm s) s

/-- An operation with a register-shift operand: R15 anywhere is UNPREDICTABLE (R170, U-G2). -/
def aluRegShift (op : AluOp) (c : Cond) (sf : Bool) (rn rd rs : Reg) (k : ShiftKind) (rm : Reg) : State → Result :=
  onCond c fun s =>
    refuseIf (usesR15 [rn, rd, rs, rm]) .r15Operand (aluWrite op sf rn rd (regShiftOperand rs k rm s) s)

/-- An operation with an immediate operand. -/
def aluImm (op : AluOp) (c : Cond) (sf : Bool) (rn rd : Reg) (rot : BitVec 4) (imm : BitVec 8) : State → Result :=
  onCond c fun s => aluWrite op sf rn rd (immOperand rot imm s) s

/-- MOV and MVN with an immediate-shift operand: the Rn field Should Be Zero (U-G1). -/
def movShift (op : AluOp) (c : Cond) (sf : Bool) (sbz rd : Reg) (sh : BitVec 5) (k : ShiftKind) (rm : Reg) :
    State → Result :=
  onCond c fun s =>
    refuseIf (decide (sbz ≠ 0)) .reservedField (aluWrite op sf 0 rd (immShiftOperand sh k rm s) s)

/-- MOV and MVN with a register-shift operand. -/
def movRegShift (op : AluOp) (c : Cond) (sf : Bool) (sbz rd rs : Reg) (k : ShiftKind) (rm : Reg) : State → Result :=
  onCond c fun s =>
    refuseIf (decide (sbz ≠ 0)) .reservedField
      (refuseIf (usesR15 [rd, rs, rm]) .r15Operand (aluWrite op sf 0 rd (regShiftOperand rs k rm s) s))

/-- MOV and MVN with an immediate operand. -/
def movImm (op : AluOp) (c : Cond) (sf : Bool) (sbz rd : Reg) (rot : BitVec 4) (imm : BitVec 8) : State → Result :=
  onCond c fun s => refuseIf (decide (sbz ≠ 0)) .reservedField (aluWrite op sf 0 rd (immOperand rot imm s) s)

/-- A test with an immediate-shift operand: the Rd field Should Be Zero (R180, U-G1, U-G3). -/
def testShift (op : AluOp) (c : Cond) (rn sbz : Reg) (sh : BitVec 5) (k : ShiftKind) (rm : Reg) : State → Result :=
  onCond c fun s => refuseIf (decide (sbz ≠ 0)) .reservedField (aluTest op rn (immShiftOperand sh k rm s) s)

/-- A test with a register-shift operand. -/
def testRegShift (op : AluOp) (c : Cond) (rn sbz rs : Reg) (k : ShiftKind) (rm : Reg) : State → Result :=
  onCond c fun s =>
    refuseIf (decide (sbz ≠ 0)) .reservedField
      (refuseIf (usesR15 [rn, rs, rm]) .r15Operand (aluTest op rn (regShiftOperand rs k rm s) s))

/-- A test with an immediate operand. -/
def testImm (op : AluOp) (c : Cond) (rn sbz : Reg) (rot : BitVec 4) (imm : BitVec 8) : State → Result :=
  onCond c fun s => refuseIf (decide (sbz ≠ 0)) .reservedField (aluTest op rn (immOperand rot imm s) s)

/-- AND, immediate shift operand (R172). -/
def execAndShift (c : Cond) (sf : Bool) (rn rd : Reg) (sh : BitVec 5) (k : ShiftKind) (rm : Reg) (s : State) : Result :=
  aluShift .and c sf rn rd sh k rm s

/-- AND, register shift operand (R172). -/
def execAndRegShift (c : Cond) (sf : Bool) (rn rd rs : Reg) (k : ShiftKind) (rm : Reg) (s : State) : Result :=
  aluRegShift .and c sf rn rd rs k rm s

/-- AND, immediate operand (R172). -/
def execAndImm (c : Cond) (sf : Bool) (rn rd : Reg) (rot : BitVec 4) (imm : BitVec 8) (s : State) : Result :=
  aluImm .and c sf rn rd rot imm s

/-- EOR, immediate shift operand (R173). -/
def execEorShift (c : Cond) (sf : Bool) (rn rd : Reg) (sh : BitVec 5) (k : ShiftKind) (rm : Reg) (s : State) : Result :=
  aluShift .eor c sf rn rd sh k rm s

/-- EOR, register shift operand (R173). -/
def execEorRegShift (c : Cond) (sf : Bool) (rn rd rs : Reg) (k : ShiftKind) (rm : Reg) (s : State) : Result :=
  aluRegShift .eor c sf rn rd rs k rm s

/-- EOR, immediate operand (R173). -/
def execEorImm (c : Cond) (sf : Bool) (rn rd : Reg) (rot : BitVec 4) (imm : BitVec 8) (s : State) : Result :=
  aluImm .eor c sf rn rd rot imm s

/-- SUB, immediate shift operand (R174). -/
def execSubShift (c : Cond) (sf : Bool) (rn rd : Reg) (sh : BitVec 5) (k : ShiftKind) (rm : Reg) (s : State) : Result :=
  aluShift .sub c sf rn rd sh k rm s

/-- SUB, register shift operand (R174). -/
def execSubRegShift (c : Cond) (sf : Bool) (rn rd rs : Reg) (k : ShiftKind) (rm : Reg) (s : State) : Result :=
  aluRegShift .sub c sf rn rd rs k rm s

/-- SUB, immediate operand (R174). -/
def execSubImm (c : Cond) (sf : Bool) (rn rd : Reg) (rot : BitVec 4) (imm : BitVec 8) (s : State) : Result :=
  aluImm .sub c sf rn rd rot imm s

/-- RSB, immediate shift operand (R175). -/
def execRsbShift (c : Cond) (sf : Bool) (rn rd : Reg) (sh : BitVec 5) (k : ShiftKind) (rm : Reg) (s : State) : Result :=
  aluShift .rsb c sf rn rd sh k rm s

/-- RSB, register shift operand (R175). -/
def execRsbRegShift (c : Cond) (sf : Bool) (rn rd rs : Reg) (k : ShiftKind) (rm : Reg) (s : State) : Result :=
  aluRegShift .rsb c sf rn rd rs k rm s

/-- RSB, immediate operand (R175). -/
def execRsbImm (c : Cond) (sf : Bool) (rn rd : Reg) (rot : BitVec 4) (imm : BitVec 8) (s : State) : Result :=
  aluImm .rsb c sf rn rd rot imm s

/-- ADD, immediate shift operand (R176). -/
def execAddShift (c : Cond) (sf : Bool) (rn rd : Reg) (sh : BitVec 5) (k : ShiftKind) (rm : Reg) (s : State) : Result :=
  aluShift .add c sf rn rd sh k rm s

/-- ADD, register shift operand (R176). -/
def execAddRegShift (c : Cond) (sf : Bool) (rn rd rs : Reg) (k : ShiftKind) (rm : Reg) (s : State) : Result :=
  aluRegShift .add c sf rn rd rs k rm s

/-- ADD, immediate operand (R176). -/
def execAddImm (c : Cond) (sf : Bool) (rn rd : Reg) (rot : BitVec 4) (imm : BitVec 8) (s : State) : Result :=
  aluImm .add c sf rn rd rot imm s

/-- ADC, immediate shift operand (R177). -/
def execAdcShift (c : Cond) (sf : Bool) (rn rd : Reg) (sh : BitVec 5) (k : ShiftKind) (rm : Reg) (s : State) : Result :=
  aluShift .adc c sf rn rd sh k rm s

/-- ADC, register shift operand (R177). -/
def execAdcRegShift (c : Cond) (sf : Bool) (rn rd rs : Reg) (k : ShiftKind) (rm : Reg) (s : State) : Result :=
  aluRegShift .adc c sf rn rd rs k rm s

/-- ADC, immediate operand (R177). -/
def execAdcImm (c : Cond) (sf : Bool) (rn rd : Reg) (rot : BitVec 4) (imm : BitVec 8) (s : State) : Result :=
  aluImm .adc c sf rn rd rot imm s

/-- SBC, immediate shift operand (R178). -/
def execSbcShift (c : Cond) (sf : Bool) (rn rd : Reg) (sh : BitVec 5) (k : ShiftKind) (rm : Reg) (s : State) : Result :=
  aluShift .sbc c sf rn rd sh k rm s

/-- SBC, register shift operand (R178). -/
def execSbcRegShift (c : Cond) (sf : Bool) (rn rd rs : Reg) (k : ShiftKind) (rm : Reg) (s : State) : Result :=
  aluRegShift .sbc c sf rn rd rs k rm s

/-- SBC, immediate operand (R178). -/
def execSbcImm (c : Cond) (sf : Bool) (rn rd : Reg) (rot : BitVec 4) (imm : BitVec 8) (s : State) : Result :=
  aluImm .sbc c sf rn rd rot imm s

/-- RSC, immediate shift operand (R179). -/
def execRscShift (c : Cond) (sf : Bool) (rn rd : Reg) (sh : BitVec 5) (k : ShiftKind) (rm : Reg) (s : State) : Result :=
  aluShift .rsc c sf rn rd sh k rm s

/-- RSC, register shift operand (R179). -/
def execRscRegShift (c : Cond) (sf : Bool) (rn rd rs : Reg) (k : ShiftKind) (rm : Reg) (s : State) : Result :=
  aluRegShift .rsc c sf rn rd rs k rm s

/-- RSC, immediate operand (R179). -/
def execRscImm (c : Cond) (sf : Bool) (rn rd : Reg) (rot : BitVec 4) (imm : BitVec 8) (s : State) : Result :=
  aluImm .rsc c sf rn rd rot imm s

/-- TST, immediate shift operand (R180). -/
def execTstShift (c : Cond) (rn sbz : Reg) (sh : BitVec 5) (k : ShiftKind) (rm : Reg) (s : State) : Result :=
  testShift .tst c rn sbz sh k rm s

/-- TST, register shift operand (R180). -/
def execTstRegShift (c : Cond) (rn sbz rs : Reg) (k : ShiftKind) (rm : Reg) (s : State) : Result :=
  testRegShift .tst c rn sbz rs k rm s

/-- TST, immediate operand (R180). -/
def execTstImm (c : Cond) (rn sbz : Reg) (rot : BitVec 4) (imm : BitVec 8) (s : State) : Result :=
  testImm .tst c rn sbz rot imm s

/-- TEQ, immediate shift operand (R181). -/
def execTeqShift (c : Cond) (rn sbz : Reg) (sh : BitVec 5) (k : ShiftKind) (rm : Reg) (s : State) : Result :=
  testShift .teq c rn sbz sh k rm s

/-- TEQ, register shift operand (R181). -/
def execTeqRegShift (c : Cond) (rn sbz rs : Reg) (k : ShiftKind) (rm : Reg) (s : State) : Result :=
  testRegShift .teq c rn sbz rs k rm s

/-- TEQ, immediate operand (R181). -/
def execTeqImm (c : Cond) (rn sbz : Reg) (rot : BitVec 4) (imm : BitVec 8) (s : State) : Result :=
  testImm .teq c rn sbz rot imm s

/-- CMP, immediate shift operand (R182). -/
def execCmpShift (c : Cond) (rn sbz : Reg) (sh : BitVec 5) (k : ShiftKind) (rm : Reg) (s : State) : Result :=
  testShift .cmp c rn sbz sh k rm s

/-- CMP, register shift operand (R182). -/
def execCmpRegShift (c : Cond) (rn sbz rs : Reg) (k : ShiftKind) (rm : Reg) (s : State) : Result :=
  testRegShift .cmp c rn sbz rs k rm s

/-- CMP, immediate operand (R182). -/
def execCmpImm (c : Cond) (rn sbz : Reg) (rot : BitVec 4) (imm : BitVec 8) (s : State) : Result :=
  testImm .cmp c rn sbz rot imm s

/-- CMN, immediate shift operand (R183). -/
def execCmnShift (c : Cond) (rn sbz : Reg) (sh : BitVec 5) (k : ShiftKind) (rm : Reg) (s : State) : Result :=
  testShift .cmn c rn sbz sh k rm s

/-- CMN, register shift operand (R183). -/
def execCmnRegShift (c : Cond) (rn sbz rs : Reg) (k : ShiftKind) (rm : Reg) (s : State) : Result :=
  testRegShift .cmn c rn sbz rs k rm s

/-- CMN, immediate operand (R183). -/
def execCmnImm (c : Cond) (rn sbz : Reg) (rot : BitVec 4) (imm : BitVec 8) (s : State) : Result :=
  testImm .cmn c rn sbz rot imm s

/-- ORR, immediate shift operand (R184). -/
def execOrrShift (c : Cond) (sf : Bool) (rn rd : Reg) (sh : BitVec 5) (k : ShiftKind) (rm : Reg) (s : State) : Result :=
  aluShift .orr c sf rn rd sh k rm s

/-- ORR, register shift operand (R184). -/
def execOrrRegShift (c : Cond) (sf : Bool) (rn rd rs : Reg) (k : ShiftKind) (rm : Reg) (s : State) : Result :=
  aluRegShift .orr c sf rn rd rs k rm s

/-- ORR, immediate operand (R184). -/
def execOrrImm (c : Cond) (sf : Bool) (rn rd : Reg) (rot : BitVec 4) (imm : BitVec 8) (s : State) : Result :=
  aluImm .orr c sf rn rd rot imm s

/-- MOV, immediate shift operand (R185). -/
def execMovShift (c : Cond) (sf : Bool) (sbz rd : Reg) (sh : BitVec 5) (k : ShiftKind) (rm : Reg) (s : State) : Result :=
  movShift .mov c sf sbz rd sh k rm s

/-- MOV, register shift operand (R185). -/
def execMovRegShift (c : Cond) (sf : Bool) (sbz rd rs : Reg) (k : ShiftKind) (rm : Reg) (s : State) : Result :=
  movRegShift .mov c sf sbz rd rs k rm s

/-- MOV, immediate operand (R185). -/
def execMovImm (c : Cond) (sf : Bool) (sbz rd : Reg) (rot : BitVec 4) (imm : BitVec 8) (s : State) : Result :=
  movImm .mov c sf sbz rd rot imm s

/-- BIC, immediate shift operand (R186). -/
def execBicShift (c : Cond) (sf : Bool) (rn rd : Reg) (sh : BitVec 5) (k : ShiftKind) (rm : Reg) (s : State) : Result :=
  aluShift .bic c sf rn rd sh k rm s

/-- BIC, register shift operand (R186). -/
def execBicRegShift (c : Cond) (sf : Bool) (rn rd rs : Reg) (k : ShiftKind) (rm : Reg) (s : State) : Result :=
  aluRegShift .bic c sf rn rd rs k rm s

/-- BIC, immediate operand (R186). -/
def execBicImm (c : Cond) (sf : Bool) (rn rd : Reg) (rot : BitVec 4) (imm : BitVec 8) (s : State) : Result :=
  aluImm .bic c sf rn rd rot imm s

/-- MVN, immediate shift operand (R187). -/
def execMvnShift (c : Cond) (sf : Bool) (sbz rd : Reg) (sh : BitVec 5) (k : ShiftKind) (rm : Reg) (s : State) : Result :=
  movShift .mvn c sf sbz rd sh k rm s

/-- MVN, register shift operand (R187). -/
def execMvnRegShift (c : Cond) (sf : Bool) (sbz rd rs : Reg) (k : ShiftKind) (rm : Reg) (s : State) : Result :=
  movRegShift .mvn c sf sbz rd rs k rm s

/-- MVN, immediate operand (R187). -/
def execMvnImm (c : Cond) (sf : Bool) (sbz rd : Reg) (rot : BitVec 4) (imm : BitVec 8) (s : State) : Result :=
  movImm .mvn c sf sbz rd rot imm s

end Sys2Proof.Machine
end

