-- ==== Sys2Proof/Machine/Multiply.lean ====
section
/-! DEFINITION. Multiplies, DSP multiplies, saturating arithmetic and CLZ (spec/43_arm_multiply_dsp.md). -/

namespace Sys2Proof.Machine

/-! ## Shared operations -/

/-- Every instruction of this family: R15 as any operand is UNPREDICTABLE (R188 (a)), and so is a clash of the
registers named (R188 (e)). -/
def mulGuard (regs : List Reg) (clash : Bool) (k : Result) : Result :=
  refuseIf (usesR15 regs) .r15Operand (refuseIf clash .registerClash k)

/-- Write a 32-bit result, with N and Z if S is set (R188 (c)). -/
def mulWrite (sf : Bool) (rd : Reg) (r : Word) (s : State) : Result :=
  let s' := s.setReg rd r
  .next (if sf then s'.setNz r else s').advance

/-- Write a 64-bit result to a register pair, with N and Z if S is set (R191). -/
def mulWriteLong (sf : Bool) (rdHi rdLo : Reg) (p : BitVec 64) (s : State) : Result :=
  let s' := (s.setReg rdLo (p.extractLsb' 0 32)).setReg rdHi (p.extractLsb' 32 32)
  .next (if sf then s'.setNz64 p else s').advance

/-- MUL and MLA (R189, R190): Rd = Rm is UNPREDICTABLE. -/
def mul32 (c : Cond) (sf : Bool) (rd : Reg) (acc : State → Word) (used : List Reg) (rs rm : Reg) : State → Result :=
  onCond c fun s =>
    mulGuard (rd :: rs :: rm :: used) (decide (rd = rm)) (mulWrite sf rd (s.reg rm * s.reg rs + acc s) s)

/-- The long multiplies (R191 to R194): RdHi, RdLo and Rm must differ. -/
def mul64 (signed acc : Bool) (c : Cond) (sf : Bool) (rdHi rdLo rs rm : Reg) : State → Result :=
  onCond c fun s =>
    mulGuard [rdHi, rdLo, rs, rm] (decide (rdHi = rdLo ∨ rdHi = rm ∨ rdLo = rm))
      (let ext (v : Word) : BitVec 64 := if signed then v.signExtend 64 else v.setWidth 64
       let base : BitVec 64 := if acc then s.reg rdHi ++ s.reg rdLo else 0
       mulWriteLong sf rdHi rdLo (ext (s.reg rm) * ext (s.reg rs) + base) s)

/-- The product of two selected halves (R195). -/
def halfProduct (x y : Bool) (a b : Word) : Word :=
  (halfOf x a).signExtend 32 * (halfOf y b).signExtend 32

/-- Bits [47:16] of the 48-bit product of a word and a selected half (R197). -/
def wideProduct (y : Bool) (a b : Word) : Word :=
  (a.signExtend 48 * (halfOf y b).signExtend 48).extractLsb' 16 32

/-- Add an accumulator; a signed overflow of the addition sets Q (R196, R198). -/
def accumulateQ (rd : Reg) (p acc : Word) (s : State) : Result :=
  let o := addFlags p acc false
  .next ((s.setReg rd o.result).orQ o.v).advance

/-- Saturate an exact result into Rd; Q becomes 1 if it saturated, or something before it did (R200 to R203). -/
def saturateTo (rd : Reg) (x : Int) (q : Bool) (s : State) : Result :=
  .next ((s.setReg rd (signedSat32 x)).orQ (q || signedDoesSat32 x)).advance

/-- QADD, QSUB, QDADD, QDSUB (R200 to R203): `double` saturates 2 x R[Rn] first, `sub` subtracts. -/
def saturating (double sub : Bool) (c : Cond) (rn rd sbz rm : Reg) : State → Result :=
  onCond c fun s =>
    refuseIf (decide (sbz ≠ 0)) .reservedField
      (mulGuard [rn, rd, rm] false
        (let twice : Int := 2 * (s.reg rn).toInt
         let y : Int := if double then (signedSat32 twice).toInt else (s.reg rn).toInt
         let a : Int := (s.reg rm).toInt
         saturateTo rd (if sub then a - y else a + y) (double && signedDoesSat32 twice) s))

/-- The number of zero bits above the highest one of the low `n` bits (R204). -/
def leadingZeros (v : Word) : Nat → Nat
  | 0 => 0
  | n + 1 => if v.getLsbD n then 0 else 1 + leadingZeros v n

/-! ## The instructions -/

/-- MUL (R189): the field [15:12] Should Be Zero. -/
def execMul (c : Cond) (sf : Bool) (rd sbz rs rm : Reg) (s : State) : Result :=
  onCond c (fun s => refuseIf (decide (sbz ≠ 0)) .reservedField (mul32 .al sf rd (fun _ => 0) [] rs rm s)) s

/-- MLA (R190). -/
def execMla (c : Cond) (sf : Bool) (rd rn rs rm : Reg) (s : State) : Result :=
  mul32 c sf rd (fun s => s.reg rn) [rn] rs rm s

/-- UMULL (R191). -/
def execUmull (c : Cond) (sf : Bool) (rdHi rdLo rs rm : Reg) (s : State) : Result :=
  mul64 false false c sf rdHi rdLo rs rm s

/-- UMLAL (R192). -/
def execUmlal (c : Cond) (sf : Bool) (rdHi rdLo rs rm : Reg) (s : State) : Result :=
  mul64 false true c sf rdHi rdLo rs rm s

/-- SMULL (R193). -/
def execSmull (c : Cond) (sf : Bool) (rdHi rdLo rs rm : Reg) (s : State) : Result :=
  mul64 true false c sf rdHi rdLo rs rm s

/-- SMLAL (R194). -/
def execSmlal (c : Cond) (sf : Bool) (rdHi rdLo rs rm : Reg) (s : State) : Result :=
  mul64 true true c sf rdHi rdLo rs rm s

/-- SMUL<x><y> (R195): the field [15:12] Should Be Zero; no flag changes. -/
def execSmulxy (c : Cond) (x y : Bool) (rd sbz rs rm : Reg) (s : State) : Result :=
  onCond c (fun s => refuseIf (decide (sbz ≠ 0)) .reservedField
    (mulGuard [rd, rs, rm] false (mulWrite false rd (halfProduct x y (s.reg rm) (s.reg rs)) s))) s

/-- SMLA<x><y> (R196). -/
def execSmlaxy (c : Cond) (x y : Bool) (rd rn rs rm : Reg) (s : State) : Result :=
  onCond c (fun s => mulGuard [rd, rn, rs, rm] false
    (accumulateQ rd (halfProduct x y (s.reg rm) (s.reg rs)) (s.reg rn) s)) s

/-- SMULW<y> (R197): the field [15:12] Should Be Zero; no flag changes. -/
def execSmulwy (c : Cond) (y : Bool) (rd sbz rs rm : Reg) (s : State) : Result :=
  onCond c (fun s => refuseIf (decide (sbz ≠ 0)) .reservedField
    (mulGuard [rd, rs, rm] false (mulWrite false rd (wideProduct y (s.reg rm) (s.reg rs)) s))) s

/-- SMLAW<y> (R198). -/
def execSmlawy (c : Cond) (y : Bool) (rd rn rs rm : Reg) (s : State) : Result :=
  onCond c (fun s => mulGuard [rd, rn, rs, rm] false
    (accumulateQ rd (wideProduct y (s.reg rm) (s.reg rs)) (s.reg rn) s)) s

/-- SMLAL<x><y> (R199): RdHi = RdLo is UNPREDICTABLE; no flag changes. -/
def execSmlalxy (c : Cond) (x y : Bool) (rdHi rdLo rs rm : Reg) (s : State) : Result :=
  onCond c (fun s => mulGuard [rdHi, rdLo, rs, rm] (decide (rdHi = rdLo))
    (mulWriteLong false rdHi rdLo
      ((halfOf x (s.reg rm)).signExtend 64 * (halfOf y (s.reg rs)).signExtend 64 + (s.reg rdHi ++ s.reg rdLo)) s)) s

/-- QADD (R200). -/
def execQadd (c : Cond) (rn rd sbz rm : Reg) (s : State) : Result := saturating false false c rn rd sbz rm s

/-- QSUB (R201). -/
def execQsub (c : Cond) (rn rd sbz rm : Reg) (s : State) : Result := saturating false true c rn rd sbz rm s

/-- QDADD (R202). -/
def execQdadd (c : Cond) (rn rd sbz rm : Reg) (s : State) : Result := saturating true false c rn rd sbz rm s

/-- QDSUB (R203). -/
def execQdsub (c : Cond) (rn rd sbz rm : Reg) (s : State) : Result := saturating true true c rn rd sbz rm s

/-- CLZ (R204): two fields Should Be One. -/
def execClz (c : Cond) (sbo1 rd sbo0 rm : Reg) (s : State) : Result :=
  onCond c (fun s => refuseIf (decide (sbo1 ≠ 15 ∨ sbo0 ≠ 15)) .reservedField
    (mulGuard [rd, rm] false (mulWrite false rd (BitVec.ofNat 32 (leadingZeros (s.reg rm) 32)) s))) s

end Sys2Proof.Machine
end

