-- ==== Sys2Proof/Machine/BranchStatus.lean ====
section
/-! DEFINITION. Branches, status register access and the instructions that raise an exception
(spec/44_arm_branch_status.md), and the undefined and unallocated encodings (spec/30_encoding.md rules R113, R116). -/

namespace Sys2Proof.Machine

/-! ## Shared operations -/

/-- A jump `offset` bytes from the current instruction; past an end of the address space it is UNPREDICTABLE
(R205 (e)). -/
def jumpRelative (offset : Int) (k : Word → State) (s : State) : Result := jumpTo (relativeTarget s.pc offset) k

/-- The byte offset of a 24-bit branch field from the instruction (R114). -/
def branchOffset24 (imm : BitVec 24) : Int := 8 + 4 * imm.toInt

/-- A branch with its link value already written (R207). -/
def State.linkNext (s : State) : State := s.setReg lrReg s.nextPc

/-- BX and BLX of a register: bit 0 selects the state (R209, R210). -/
def exchangeTo (target : Word) (link : Bool) (s : State) : Result :=
  jumpExchange target (if link then s.linkNext else s)

/-- UnallocMask (R212). -/
def psrUnallocMask : Word := 0x07FFFF00
/-- UserMask (R212). -/
def psrUserMask : Word := 0xF8000000
/-- PrivMask (R212). -/
def psrPrivMask : Word := 0x000000DF
/-- StateMask (R212). -/
def psrStateMask : Word := 0x00000020

/-- byte_mask of a field_mask (R212). -/
def psrByteMask (mask : BitVec 4) : Word :=
  (if mask.getLsbD 3 then 0xFF#8 else 0) ++ (if mask.getLsbD 2 then 0xFF#8 else 0) ++
    (if mask.getLsbD 1 then 0xFF#8 else 0) ++ (if mask.getLsbD 0 then 0xFF#8 else 0)

/-- Replace the bits of a mask. -/
def mergeBits (old new mask : Word) : Word := (old &&& ~~~mask) ||| (new &&& mask)

/-- MSR to the CPSR (R212): User mode writes the flags byte only; a privileged write that sets T, or that would make
the mode illegal (U-G12), is UNPREDICTABLE. -/
def msrCpsr (mask : BitVec 4) (operand : Word) (s : State) : Result :=
  if s.privileged then
    let new := mergeBits s.cpsr operand (psrByteMask mask &&& (psrUserMask ||| psrPrivMask))
    refuseIf (decide (operand &&& psrStateMask ≠ 0)) .msrTBit
      (refuseIf (!(Mode.ofBits (Psr.m new)).isSome) .illegalMode (.next (s.setCpsr new).advance))
  else .next (s.setCpsr (mergeBits s.cpsr operand (psrByteMask mask &&& psrUserMask))).advance

/-- MSR to the SPSR of the current mode (R212). -/
def msrSpsr (mask : BitVec 4) (operand : Word) (s : State) : Result :=
  match s.spsr? with
  | none => .refused .noSpsr
  | some old =>
    .next (s.setSpsr s.mode
      (mergeBits old operand (psrByteMask mask &&& (psrUserMask ||| psrPrivMask ||| psrStateMask)))).advance

/-- MSR with its operand (R212): a field mask of zero is a NOP, whatever the operand and the mode (U-G6; DEDUCED, entry 43);
an operand with unallocated bits set is UNPREDICTABLE (D6). -/
def msr (r : Bool) (mask : BitVec 4) (operand : Word) (s : State) : Result :=
  if mask = 0 then s.done
  else
    refuseIf (decide (operand &&& psrUnallocMask ≠ 0)) .psrReservedBits
      (if r then msrSpsr mask operand s else msrCpsr mask operand s)

/-! ## Branches -/

/-- B (R206). -/
def execB (c : Cond) (imm : BitVec 24) (s : State) : Result :=
  onCond c (fun s => jumpRelative (branchOffset24 imm) s.jump s) s

/-- BL (R207). -/
def execBl (c : Cond) (imm : BitVec 24) (s : State) : Result :=
  onCond c (fun s => jumpRelative (branchOffset24 imm) s.linkNext.jump s) s

/-- BLX (1) (R208): to Thumb state, H gives bit 1 of the target. -/
def execBlxImm (h : Bool) (imm : BitVec 24) (s : State) : Result :=
  jumpRelative (branchOffset24 imm + 2 * h.toNat)
    (fun t => (s.linkNext.setCpsr (Psr.setT s.cpsr true)).jump t) s

/-- BLX (2) (R209): Rm = R15 is UNPREDICTABLE; bits [19:8] Should Be One. -/
def execBlxReg (c : Cond) (sbo2 sbo1 sbo0 rm : Reg) (s : State) : Result :=
  onCond c (fun s => refuseIf (decide (sbo2 ≠ 15 ∨ sbo1 ≠ 15 ∨ sbo0 ≠ 15)) .reservedField
    (refuseIf (usesR15 [rm]) .r15Operand (exchangeTo (s.reg rm) true s))) s

/-- BX (R210): bits [19:8] Should Be One. `BX PC` goes on two instructions ahead, where there are two (R205 (e)). -/
def execBx (c : Cond) (sbo2 sbo1 sbo0 rm : Reg) (s : State) : Result :=
  onCond c (fun s => refuseIf (decide (sbo2 ≠ 15 ∨ sbo1 ≠ 15 ∨ sbo0 ≠ 15)) .reservedField
    (refuseIf (usesR15 [rm] && s.pcWraps) .addressWrap (exchangeTo (s.reg rm) false s))) s

/-! ## Status registers -/

/-- MRS (R211): R = 1 reads the SPSR, which User and System mode do not have; Rd = R15 is UNPREDICTABLE. -/
def execMrs (c : Cond) (r : Bool) (sbo rd sbz1 sbz0 : Reg) (s : State) : Result :=
  onCond c (fun s => refuseIf (decide (sbo ≠ 15 ∨ sbz1 ≠ 0 ∨ sbz0 ≠ 0)) .reservedField
    (refuseIf (usesR15 [rd]) .r15Operand
      (if r then
        match s.spsr? with
        | none => .refused .noSpsr
        | some p => .next (s.setReg rd p).advance
      else .next (s.setReg rd s.cpsr).advance))) s

/-- MSR, register operand (R212): Rm = R15 is UNPREDICTABLE, with a field mask of zero too (DESIGN CHOICE, entry
43). -/
def execMsrReg (c : Cond) (r : Bool) (mask : BitVec 4) (sbo sbz rm : Reg) (s : State) : Result :=
  onCond c (fun s => refuseIf (decide (sbo ≠ 15 ∨ sbz ≠ 0)) .reservedField
    (refuseIf (usesR15 [rm]) .r15Operand (msr r mask (s.reg rm) s))) s

/-- MSR, immediate operand (R212). -/
def execMsrImm (c : Cond) (r : Bool) (mask : BitVec 4) (sbo : Reg) (rot : BitVec 4) (imm : BitVec 8) (s : State) :
    Result :=
  onCond c (fun s => refuseIf (decide (sbo ≠ 15)) .reservedField (msr r mask (rotatedImm rot imm) s)) s

/-! ## Exceptions -/

/-- SWI (R213): the comment field is ignored by the processor. -/
def execSwi (c : Cond) (_imm : BitVec 24) (s : State) : Result := onCond c (fun s => .next (s.raise .swi)) s

/-- BKPT (R214, D20): Prefetch Abort, always; a condition other than AL is UNPREDICTABLE. -/
def execBkpt (c : Cond) (_immHi : BitVec 12) (_immLo : BitVec 4) (s : State) : Result :=
  refuseIf (decide (c ≠ .al)) .conditionalBkpt (raisePrefetchAbort s)

/-- The undefined instruction space [27:25] = 011, [4] = 1 (R113 kind 1, R315). -/
def execUndefinedArm (c : Cond) (_hi : BitVec 20) (_lo : BitVec 4) (s : State) : Result := onCond c raiseUndefined s

/-- The undefined instruction space [27:23] = 00110, [21:20] = 00 (R113 kind 1, R315). -/
def execUndefinedArm2 (c : Cond) (_b22 : Bool) (_rn _rd : Reg) (_rot : BitVec 4) (_imm : BitVec 8) (s : State) :
    Result := onCond c raiseUndefined s

/-- The permanently undefined Thumb encoding (R116, R315, D14 (c)). -/
def execUndefinedThumb (_imm : BitVec 8) (s : State) : Result := raiseUndefined s

/-! ## Unallocated encodings (R113 kind 3, R116, D14 (b)): the spec makes no claim -/

/-- cond = 1111, P = U = N = W = 0. -/
def execUnallocUncondLsm (_bits : BitVec 21) (_s : State) : Result := .refused .unallocated

/-- cond = 1111, the pattern of MCRR and MRRC. -/
def execUnallocUncondMcrr (_bits : BitVec 21) (_s : State) : Result := .refused .unallocated

/-- Every other cond = 1111 encoding. -/
def execUnallocUncond (_bits : BitVec 28) (_s : State) : Result := .refused .unallocated

/-- Coprocessor extension space; with its condition failed it is skipped (R100). -/
def execUnallocCp (c : Cond) (_b20 : Bool) (_rn _rd _cp : Reg) (_lo : BitVec 8) (s : State) : Result :=
  onCond c (fun _ => .refused .unallocated) s

/-- Arithmetic extension space. -/
def execUnallocArith (c : Cond) (_b21 _b20 : Bool) (_rn _rd _rs _rm : Reg) (s : State) : Result :=
  onCond c (fun _ => .refused .unallocated) s

/-- Load and store extension space with [6:5] = 00. -/
def execUnallocExt (c : Cond) (_b23 _b22 _b21 _b20 : Bool) (_rn _rd _rs _rm : Reg) (s : State) : Result :=
  onCond c (fun _ => .refused .unallocated) s

/-- The rest of the control and DSP extension space. -/
def execUnallocMisc (c : Cond) (_b22 _b21 : Bool) (_rn _rd _rs : Reg) (_b7 _b6 _b5 _b4 : Bool) (_rm : Reg)
    (s : State) : Result :=
  onCond c (fun _ => .refused .unallocated) s

/-- The rest of the Thumb patterns 1011 xxxx xxxx xxxx. -/
def execUnallocThumbMisc (_bits : BitVec 12) (_s : State) : Result := .refused .unallocated

/-- A Thumb BLX suffix with bit 0 set. -/
def execUnallocBlxSuffix (_bits : BitVec 10) (_s : State) : Result := .refused .unallocated

end Sys2Proof.Machine
end

