-- ==== Sys2Proof/Machine/LoadStoreMultiple.lean ====
section
/-! DEFINITION. ARM load and store multiple (spec/46_arm_load_store_multiple.md). -/

namespace Sys2Proof.Machine

/-! ## Addressing mode 4 (R234) -/

/-- start_address for n words. -/
def multipleStart (p u : Bool) (base : Word) (n : Nat) : Word :=
  match p, u with
  | false, true => base
  | true, true => base + 4
  | false, false => base - BitVec.ofNat 32 (4 * n) + 4
  | true, false => base - BitVec.ofNat 32 (4 * n)

/-- new_base for n words. -/
def multipleNewBase (u : Bool) (base : Word) (n : Nat) : Word := offsetAddress u base (BitVec.ofNat 32 (4 * n))

/-- Every form: an empty list and R15 as base are UNPREDICTABLE (R234). -/
def multipleGuard (empty : Bool) (rn : Reg) (k : Result) : Result :=
  refuseIf empty .emptyList (refuseIf (decide (rn = 15)) .r15Operand k)

/-- The user-bank forms: write-back, and User or System mode, are UNPREDICTABLE (R238, R241). -/
def userBankGuard (w : Bool) (s : State) (k : Result) : Result := refuseIf (w || s.spsr?.isNone) .userTransfer k

/-! ## Loading -/

/-- Write registers of a bank, R15 left out. -/
def setRegs (m : Mode) : List (Reg × Word) → State → State
  | [], s => s
  | (r, v) :: rest, s => setRegs m rest (if r = 15 then s else s.setBankReg m r v)

/-- The words of a load multiple, into the bank of a mode; then the rest of the instruction gets the last word. On an
abort the registers of the list other than the base and R15 are undefined (R236 (3), U-46-1). -/
def loadMultiple (m : Mode) (rn : Reg) (start : Word) (regs : List Reg) (s : State) (k : Word → State → Result) :
    Result :=
  match readWords (wordAddresses start regs.length) s with
  | .ok vs s' => k (vs.getLast?.getD 0) (setRegs m (regs.zip vs) s')
  | .abort s' => raiseDataAbort (freeRegs m (s.basePlace rn) regs s')
  | .stop x => x.result

/-- The base after a load or store multiple. -/
def multipleWriteBack (w u : Bool) (rn : Reg) (base : Word) (n : Nat) (s : State) : State :=
  if w then s.setReg rn (multipleNewBase u base n) else s

/-- LDM (1) with a list given as register numbers (R237). -/
def ldmList (p u w : Bool) (rn : Reg) (regs : List Reg) (s : State) : Result :=
  multipleGuard regs.isEmpty rn
    (refuseIf (w && regs.contains rn) .baseInList
      (loadMultiple s.mode rn (multipleStart p u (s.reg rn) regs.length) regs s fun last s' =>
        let s'' := multipleWriteBack w u rn (s.reg rn) regs.length s'
        if regs.contains 15 then loadPc last s'' else .next s''.advance))

/-! ## Storing -/

/-- The values of a store multiple (R240, R241): a base written back that is not the lowest register of the list is
stored as an undefined value (U-G11). -/
def storeValues (value : Reg → Word) (w : Bool) (rn : Reg) (undefinedBase : Word) (regs : List Reg) : List Word :=
  regs.map fun r => if w && decide (r = rn) && decide (regs.head? ≠ some rn) then undefinedBase else value r

/-- The words of a store multiple (R240), then the rest of the instruction. -/
def storeMultiple (value : Reg → Word) (w : Bool) (rn : Reg) (start : Word) (regs : List Reg) (s : State)
    (k : State → Result) : Result :=
  let (free, s) := s.takeWord
  (writeWords false ((wordAddresses start regs.length).zip (storeValues value w rn free regs)) s).finish fun _ s => k s

/-- STM (1) with a list given as register numbers (R240). -/
def stmList (p u w : Bool) (rn : Reg) (regs : List Reg) (s : State) : Result :=
  multipleGuard regs.isEmpty rn
    (storeMultiple s.storeReg w rn (multipleStart p u (s.reg rn) regs.length) regs s fun s' =>
      .next (multipleWriteBack w u rn (s.reg rn) regs.length s').advance)

/-- A register as the User bank has it; R15 as a store sees it (R241). -/
def State.userReg (s : State) (r : Reg) : Word := if r = 15 then s.storeReg 15 else s.bankReg .usr r

/-- The next instruction follows a user-bank transfer (U-G11). -/
def State.afterUserTransfer (s : State) : State := { s with userXfer := true }

/-! ## The instructions -/

/-- LDM (3), load multiple with exception return (R239). -/
def execLdmReturn (c : Cond) (p u w : Bool) (rn : Reg) (list : BitVec 15) (s : State) : Result :=
  onCond c (fun s =>
    let regs := listRegs list ++ [15]
    refuseIf s.spsr?.isNone .noSpsr
      (multipleGuard false rn
        (refuseIf (w && regs.contains rn) .baseInList
          (loadMultiple s.mode rn (multipleStart p u (s.reg rn) regs.length) regs s fun last s' =>
            exceptionReturn last (multipleWriteBack w u rn (s.reg rn) regs.length s'))))) s

/-- LDM (2), load User mode registers (R238). -/
def execLdmUser (c : Cond) (p u w : Bool) (rn : Reg) (list : BitVec 15) (s : State) : Result :=
  onCond c (fun s =>
    let regs := listRegs list
    multipleGuard regs.isEmpty rn
      (userBankGuard w s
        (loadMultiple .usr rn (multipleStart p u (s.reg rn) regs.length) regs s fun _ s' =>
          .next s'.afterUserTransfer.advance))) s

/-- LDM (1) (R237). -/
def execLdm (c : Cond) (p u w : Bool) (rn : Reg) (list : BitVec 16) (s : State) : Result :=
  onCond c (ldmList p u w rn (listRegs list)) s

/-- STM (2), store User mode registers (R241). -/
def execStmUser (c : Cond) (p u w : Bool) (rn : Reg) (list : BitVec 16) (s : State) : Result :=
  onCond c (fun s =>
    let regs := listRegs list
    multipleGuard regs.isEmpty rn
      (userBankGuard w s
        (storeMultiple s.userReg false rn (multipleStart p u (s.reg rn) regs.length) regs s fun s' =>
          .next s'.afterUserTransfer.advance))) s

/-- STM (1) (R240). -/
def execStm (c : Cond) (p u w : Bool) (rn : Reg) (list : BitVec 16) (s : State) : Result :=
  onCond c (stmList p u w rn (listRegs list)) s

end Sys2Proof.Machine
end

