-- ==== Sys2Proof/Machine/Thumb.lean ====
section
/-! DEFINITION. The Thumb instructions (spec/47_thumb.md, spec/48_thumb_memory_branch.md). -/

namespace Sys2Proof.Machine

/-! ## Shared operations -/

/-- An operation that writes a low register and N, Z, C, V (R247 to R254, R260, R261). -/
def thumbArith (rd : LoReg) (o : AluOut) (s : State) : Result :=
  .next ((s.setReg rd.reg o.result).setFlags o).advance

/-- A comparison: flags only (R252, R265, R266, R272). -/
def thumbCompare (o : AluOut) (s : State) : Result := .next (s.setFlags o).advance

/-- A logical operation: N and Z, with C and V as they were (R255, R256, R267 to R270). -/
def thumbLogic (rd : LoReg) (r : Word) (s : State) : Result := .next ((s.setReg rd.reg r).setNz r).advance

/-- A shift: N, Z and the shifter's carry; V as it was (R244 to R246, R257 to R259, R262). -/
def thumbShift (rd : LoReg) (o : ShifterOut) (s : State) : Result :=
  thumbArith rd (logicFlags o.value o.carry s.cpsr) s

/-- A shift of Rd by the bottom byte of Rs (R257 to R259, R262). -/
def thumbShiftReg (k : ShiftKind) (rs rd : LoReg) (s : State) : Result :=
  thumbShift rd (regShiftOperand rs.reg k rd.reg s) s

/-- Both registers low in a form for high registers is UNPREDICTABLE (R243, U-G13). -/
def bothLow (a b : Reg) : Bool := !a.getLsbD 3 && !b.getLsbD 3

/-- Write any register; R15 is a jump within Thumb state (R271, R273). -/
def thumbWriteAny (rd : Reg) (v : Word) (s : State) : Result :=
  if rd = 15 then writePcThumb v s else .next (s.setReg rd v).advance

/-- A load of one low register (R278): at an unaligned address with A = 0 the aligned access is made and the value is
free (R57, U-G13). -/
def thumbLoad (size : Size) (ext : Word → Word) (address : Word) (rd : LoReg) (s : State) : Result :=
  (memRead false size address s).finish fun v s =>
    if misaligned size address then
      let (free, s) := s.takeWord
      .next (s.setReg rd.reg free).advance
    else .next (s.setReg rd.reg (ext v)).advance

/-- A store of one low register (R278): at an unaligned address with A = 0 the value of the stored word is free (R57,
U-G13). The spec does not say which access such a halfword store makes: here it is a word access to the word that holds the
address, for its abort, for the watchpoints and on the data port (DESIGN CHOICE, entry 25). -/
def thumbStore (size : Size) (address : Word) (rd : LoReg) (s : State) : Result :=
  if misaligned size address && !s.cp15.a then
    let (free, s) := s.takeWord
    (memWrite false false false .word (alignTo .word address) free s).finish fun _ s => .next s.advance
  else (memWrite false false false size address (s.reg rd.reg) s).finish fun _ s => .next s.advance

/-- An address Rn + immed_5 times a scale (R280 to R285). -/
def immAddress (imm : BitVec 5) (scale : Nat) (rn : LoReg) (s : State) : Word := s.reg rn.reg + scaled imm scale

/-- An address Rn + Rm (R286 to R293). -/
def regAddress (rm rn : LoReg) (s : State) : Word := s.reg rn.reg + s.reg rm.reg

/-- An address SP + immed_8 * 4 (R294, R295). -/
def spAddress (imm : BitVec 8) (s : State) : Word := s.reg spReg + scaled imm 4

/-- The register list of PUSH and POP, with R14 or R15 added by the R bit (R296, R297). -/
def stackRegs (list : BitVec 8) (extra : Bool) (r : Reg) : List Reg := listRegs list ++ (if extra then [r] else [])

/-- The return address that a Thumb branch with link leaves: bit 0 set (R303, R304, R306). -/
def State.thumbLink (s : State) : State := s.setReg lrReg (s.nextPc ||| 1)

/-- A BL or BLX prefix that leaves `v` in R14 has been executed: the next instruction may be its suffix. Each execution has a
note of its own, because an interrupt's handler may run the same pair before the suffix comes (R302). -/
def State.notePrefix (s : State) (v : Word) : State := { s with prefixes := ⟨s.nextPc, v⟩ :: s.prefixes }

/-- What a prefix in front of the suffix at `pc` would have left, with the R14 of now. -/
def State.ownPrefix (s : State) : BlPrefix := ⟨s.pc, s.reg lrReg⟩

/-- The suffix at `pc` has used the note of one prefix. -/
def State.dropPrefix (s : State) : State := { s with prefixes := s.prefixes.erase s.ownPrefix }

/-- The target of a BL or BLX suffix, R14 plus an offset (R303, R304); past an end of the address space there is none
(R24). The suffix of a pair starts from the sum that its prefix stands for, which may lie beyond an end and come back: R14 is
that sum modulo 2^32, at most 4MB from `pc + 2`. A suffix without a prefix uses the address that R14 holds (R117; DEDUCED,
entry 24). -/
def blTarget (offset : Nat) (s : State) : Option Word :=
  if s.ownPrefix ∈ s.prefixes then relativeTarget s.pc (2 + (s.reg lrReg - (s.pc + 2)).toInt + offset)
  else relativeTarget (s.reg lrReg) offset

/-- The byte offset of a Thumb branch field (R118). -/
def thumbOffset {n : Nat} (imm : BitVec n) : Int := 4 + 2 * imm.toInt

/-! ## Data processing -/

/-- LSL (1) (R244). -/
def execTLslImm (imm : BitVec 5) (rm rd : LoReg) (s : State) : Result :=
  thumbShift rd (immShiftOperand imm .lsl rm.reg s) s

/-- LSR (1) (R245): 0 stands for 32. -/
def execTLsrImm (imm : BitVec 5) (rm rd : LoReg) (s : State) : Result :=
  thumbShift rd (immShiftOperand imm .lsr rm.reg s) s

/-- ASR (1) (R246): 0 stands for 32. -/
def execTAsrImm (imm : BitVec 5) (rm rd : LoReg) (s : State) : Result :=
  thumbShift rd (immShiftOperand imm .asr rm.reg s) s

/-- ADD (3) (R247). -/
def execTAddReg (rm rn rd : LoReg) (s : State) : Result :=
  thumbArith rd (addFlags (s.reg rn.reg) (s.reg rm.reg) false) s

/-- SUB (3) (R248). -/
def execTSubReg (rm rn rd : LoReg) (s : State) : Result :=
  thumbArith rd (subFlags (s.reg rn.reg) (s.reg rm.reg) true) s

/-- ADD (1) (R249). -/
def execTAddImm3 (imm : BitVec 3) (rn rd : LoReg) (s : State) : Result :=
  thumbArith rd (addFlags (s.reg rn.reg) (imm.setWidth 32) false) s

/-- SUB (1) (R250). -/
def execTSubImm3 (imm : BitVec 3) (rn rd : LoReg) (s : State) : Result :=
  thumbArith rd (subFlags (s.reg rn.reg) (imm.setWidth 32) true) s

/-- MOV (1) (R251). -/
def execTMovImm (rd : LoReg) (imm : BitVec 8) (s : State) : Result := thumbLogic rd (imm.setWidth 32) s

/-- CMP (1) (R252). -/
def execTCmpImm (rn : LoReg) (imm : BitVec 8) (s : State) : Result :=
  thumbCompare (subFlags (s.reg rn.reg) (imm.setWidth 32) true) s

/-- ADD (2) (R253). -/
def execTAddImm8 (rd : LoReg) (imm : BitVec 8) (s : State) : Result :=
  thumbArith rd (addFlags (s.reg rd.reg) (imm.setWidth 32) false) s

/-- SUB (2) (R254). -/
def execTSubImm8 (rd : LoReg) (imm : BitVec 8) (s : State) : Result :=
  thumbArith rd (subFlags (s.reg rd.reg) (imm.setWidth 32) true) s

/-- AND (R255). -/
def execTAnd (rm rd : LoReg) (s : State) : Result := thumbLogic rd (s.reg rd.reg &&& s.reg rm.reg) s

/-- EOR (R256). -/
def execTEor (rm rd : LoReg) (s : State) : Result := thumbLogic rd (s.reg rd.reg ^^^ s.reg rm.reg) s

/-- LSL (2) (R257). -/
def execTLslReg (rs rd : LoReg) (s : State) : Result := thumbShiftReg .lsl rs rd s

/-- LSR (2) (R258). -/
def execTLsrReg (rs rd : LoReg) (s : State) : Result := thumbShiftReg .lsr rs rd s

/-- ASR (2) (R259). -/
def execTAsrReg (rs rd : LoReg) (s : State) : Result := thumbShiftReg .asr rs rd s

/-- ADC (R260). -/
def execTAdc (rm rd : LoReg) (s : State) : Result :=
  thumbArith rd (addFlags (s.reg rd.reg) (s.reg rm.reg) (Psr.c s.cpsr)) s

/-- SBC (R261). -/
def execTSbc (rm rd : LoReg) (s : State) : Result :=
  thumbArith rd (subFlags (s.reg rd.reg) (s.reg rm.reg) (Psr.c s.cpsr)) s

/-- ROR (R262). -/
def execTRorReg (rs rd : LoReg) (s : State) : Result := thumbShiftReg .ror rs rd s

/-- TST (R263). -/
def execTTst (rm rn : LoReg) (s : State) : Result := .next (s.setNz (s.reg rn.reg &&& s.reg rm.reg)).advance

/-- NEG (R264). -/
def execTNeg (rm rd : LoReg) (s : State) : Result := thumbArith rd (subFlags 0 (s.reg rm.reg) true) s

/-- CMP (2) (R265). -/
def execTCmpReg (rm rn : LoReg) (s : State) : Result := thumbCompare (subFlags (s.reg rn.reg) (s.reg rm.reg) true) s

/-- CMN (R266). -/
def execTCmn (rm rn : LoReg) (s : State) : Result := thumbCompare (addFlags (s.reg rn.reg) (s.reg rm.reg) false) s

/-- ORR (R267). -/
def execTOrr (rm rd : LoReg) (s : State) : Result := thumbLogic rd (s.reg rd.reg ||| s.reg rm.reg) s

/-- MUL (R268): C and V as they were; Rd = Rm is UNPREDICTABLE (U-G13). -/
def execTMul (rm rd : LoReg) (s : State) : Result :=
  refuseIf (decide (rm = rd)) .registerClash (thumbLogic rd (s.reg rm.reg * s.reg rd.reg) s)

/-- BIC (R269). -/
def execTBic (rm rd : LoReg) (s : State) : Result := thumbLogic rd (s.reg rd.reg &&& ~~~(s.reg rm.reg)) s

/-- MVN (R270). -/
def execTMvn (rm rd : LoReg) (s : State) : Result := thumbLogic rd (~~~(s.reg rm.reg)) s

/-- ADD (4) (R271). With Rd = R15 a branch, whose sum is taken modulo 2^32 (DESIGN CHOICE, entry 16). -/
def execTAddHi (rm rd : Reg) (s : State) : Result :=
  refuseIf (bothLow rm rd) .reservedField (thumbWriteAny rd (s.reg rd + s.reg rm) s)

/-- CMP (3) (R272): Rn = R15 is UNPREDICTABLE. -/
def execTCmpHi (rm rn : Reg) (s : State) : Result :=
  refuseIf (bothLow rm rn) .reservedField
    (refuseIf (usesR15 [rn]) .r15Operand (thumbCompare (subFlags (s.reg rn) (s.reg rm) true) s))

/-- MOV (3) (R273). -/
def execTMovHi (rm rd : Reg) (s : State) : Result :=
  refuseIf (bothLow rm rd) .reservedField (thumbWriteAny rd (s.reg rm) s)

/-- ADD (5) (R274). -/
def execTAddPcImm (rd : LoReg) (imm : BitVec 8) (s : State) : Result :=
  .next (s.setReg rd.reg (s.thumbPcBase + scaled imm 4)).advance

/-- ADD (6) (R275). -/
def execTAddSpImm (rd : LoReg) (imm : BitVec 8) (s : State) : Result :=
  .next (s.setReg rd.reg (s.reg spReg + scaled imm 4)).advance

/-- ADD (7) (R276). -/
def execTAddSp (imm : BitVec 7) (s : State) : Result := .next (s.setReg spReg (s.reg spReg + scaled imm 4)).advance

/-- SUB (4) (R277). -/
def execTSubSp (imm : BitVec 7) (s : State) : Result := .next (s.setReg spReg (s.reg spReg - scaled imm 4)).advance

/-! ## Loads and stores -/

/-- LDR (3), from the literal pool (R279). -/
def execTLdrLit (rd : LoReg) (imm : BitVec 8) (s : State) : Result :=
  thumbLoad .word id (s.thumbPcBase + scaled imm 4) rd s

/-- LDR (2), register offset (R286). -/
def execTLdrReg (rm rn rd : LoReg) (s : State) : Result := thumbLoad .word id (regAddress rm rn s) rd s

/-- LDRH (2), register offset (R288). -/
def execTLdrhReg (rm rn rd : LoReg) (s : State) : Result := thumbLoad .half id (regAddress rm rn s) rd s

/-- LDRB (2), register offset (R290). -/
def execTLdrbReg (rm rn rd : LoReg) (s : State) : Result := thumbLoad .byte id (regAddress rm rn s) rd s

/-- LDRSB, register offset (R292). -/
def execTLdrsbReg (rm rn rd : LoReg) (s : State) : Result := thumbLoad .byte signByte (regAddress rm rn s) rd s

/-- LDRSH, register offset (R293). -/
def execTLdrshReg (rm rn rd : LoReg) (s : State) : Result := thumbLoad .half signHalf (regAddress rm rn s) rd s

/-- STR (2), register offset (R287). -/
def execTStrReg (rm rn rd : LoReg) (s : State) : Result := thumbStore .word (regAddress rm rn s) rd s

/-- STRH (2), register offset (R289). -/
def execTStrhReg (rm rn rd : LoReg) (s : State) : Result := thumbStore .half (regAddress rm rn s) rd s

/-- STRB (2), register offset (R291). -/
def execTStrbReg (rm rn rd : LoReg) (s : State) : Result := thumbStore .byte (regAddress rm rn s) rd s

/-- LDR (1), immediate offset (R280). -/
def execTLdrImm (imm : BitVec 5) (rn rd : LoReg) (s : State) : Result :=
  thumbLoad .word id (immAddress imm 4 rn s) rd s

/-- LDRB (1), immediate offset (R282). -/
def execTLdrbImm (imm : BitVec 5) (rn rd : LoReg) (s : State) : Result :=
  thumbLoad .byte id (immAddress imm 1 rn s) rd s

/-- LDRH (1), immediate offset (R284). -/
def execTLdrhImm (imm : BitVec 5) (rn rd : LoReg) (s : State) : Result :=
  thumbLoad .half id (immAddress imm 2 rn s) rd s

/-- STR (1), immediate offset (R281). -/
def execTStrImm (imm : BitVec 5) (rn rd : LoReg) (s : State) : Result := thumbStore .word (immAddress imm 4 rn s) rd s

/-- STRB (1), immediate offset (R283). -/
def execTStrbImm (imm : BitVec 5) (rn rd : LoReg) (s : State) : Result :=
  thumbStore .byte (immAddress imm 1 rn s) rd s

/-- STRH (1), immediate offset (R285). -/
def execTStrhImm (imm : BitVec 5) (rn rd : LoReg) (s : State) : Result :=
  thumbStore .half (immAddress imm 2 rn s) rd s

/-- LDR (4), SP-relative (R294). -/
def execTLdrSp (rd : LoReg) (imm : BitVec 8) (s : State) : Result := thumbLoad .word id (spAddress imm s) rd s

/-- STR (3), SP-relative (R295). -/
def execTStrSp (rd : LoReg) (imm : BitVec 8) (s : State) : Result := thumbStore .word (spAddress imm s) rd s

/-- PUSH (R296): as ARM STMDB SP!. -/
def execTPush (r : Bool) (list : BitVec 8) (s : State) : Result :=
  stmList true false true spReg (stackRegs list r lrReg) s

/-- POP (R297): as ARM LDMIA SP!; a loaded PC goes through LoadPC (R219). -/
def execTPop (r : Bool) (list : BitVec 8) (s : State) : Result :=
  ldmList false true true spReg (stackRegs list r 15) s

/-- LDMIA (R298): write-back unless Rn is in the list. -/
def execTLdmia (rn : LoReg) (list : BitVec 8) (s : State) : Result :=
  ldmList false true (!(listRegs list).contains rn.reg) rn.reg (listRegs list) s

/-- STMIA (R299). -/
def execTStmia (rn : LoReg) (list : BitVec 8) (s : State) : Result := stmList false true true rn.reg (listRegs list) s

/-! ## Branches and exceptions -/

/-- B (1) (R300). -/
def execTBCond (c : Cond) (imm : BitVec 8) (s : State) : Result :=
  onCond c (fun s => jumpRelative (thumbOffset imm) s.jump s) s

/-- B (2) (R301). -/
def execTB (imm : BitVec 11) (s : State) : Result := jumpRelative (thumbOffset imm) s.jump s

/-- The prefix of BL and BLX (1) (R302): an instruction of its own. -/
def execTBlPrefix (imm : BitVec 11) (s : State) : Result :=
  let v := s.readPc + (imm.signExtend 32 <<< 12)
  .next ((s.setReg lrReg v).notePrefix v).advance

/-- The suffix of BL (R303). Bit 0 of the target is ignored (DEDUCED, entry 24). -/
def execTBlSuffix (imm : BitVec 11) (s : State) : Result :=
  jumpTo (blTarget (2 * imm.toNat) s) fun t => s.dropPrefix.thumbLink.jump (t &&& ~~~1)

/-- The suffix of BLX (1) (R304): `imm` is offset_11 without its bit 0, which is 0. -/
def execTBlxSuffix (imm : BitVec 10) (s : State) : Result :=
  jumpTo (blTarget (4 * imm.toNat) s) fun t =>
    (s.dropPrefix.thumbLink.setCpsr (Psr.setT s.cpsr false)).jump (t &&& ~~~3)

/-- BX (R305): bits [2:0] Should Be Zero. `BX PC` goes on two instructions ahead, where there are two (R205 (e)). -/
def execTBx (rm : Reg) (sbz : BitVec 3) (s : State) : Result :=
  refuseIf (decide (sbz ≠ 0)) .reservedField
    (refuseIf (usesR15 [rm] && s.pcWraps) .addressWrap (jumpExchange (s.reg rm) s))

/-- BLX (2) (R306): Rm = R15 is UNPREDICTABLE. -/
def execTBlxReg (rm : Reg) (sbz : BitVec 3) (s : State) : Result :=
  refuseIf (decide (sbz ≠ 0)) .reservedField
    (refuseIf (usesR15 [rm]) .r15Operand (jumpExchange (s.reg rm) s.thumbLink))

/-- SWI (R307). -/
def execTSwi (_imm : BitVec 8) (s : State) : Result := .next (s.raise .swi)

/-- BKPT (R308, D20). -/
def execTBkpt (_imm : BitVec 8) (s : State) : Result := raisePrefetchAbort s

end Sys2Proof.Machine
end

