-- ==== Sys2Proof/Machine/Dispatch.lean ====
section
/-! DEFINITION. Every instruction and its meaning. -/

namespace Sys2Proof.Machine

/-- What an instruction does: one arm for each row of spec/opcode_table.json, in the table's order. -/
def exec (i : Instr) (s : State) : Host.Outcome State Fault Refusal :=
  match i with
  | .pldImm u rn imm => Sys2Proof.Machine.execPldImm u rn imm s
  | .pldReg u rn sh k rm => Sys2Proof.Machine.execPldReg u rn sh k rm s
  | .blxImm h imm => Sys2Proof.Machine.execBlxImm h imm s
  | .unallocUncondLsm bits => Sys2Proof.Machine.execUnallocUncondLsm bits s
  | .unallocUncondMcrr bits => Sys2Proof.Machine.execUnallocUncondMcrr bits s
  | .ldc2 a n rn crd cp imm => Sys2Proof.Machine.execLdc2 a n rn crd cp imm s
  | .stc2 a n rn crd cp imm => Sys2Proof.Machine.execStc2 a n rn crd cp imm s
  | .cdp2 op1 crn crd cp op2 crm => Sys2Proof.Machine.execCdp2 op1 crn crd cp op2 crm s
  | .mcr2 op1 crn rd cp op2 crm => Sys2Proof.Machine.execMcr2 op1 crn rd cp op2 crm s
  | .mrc2 op1 crn rd cp op2 crm => Sys2Proof.Machine.execMrc2 op1 crn rd cp op2 crm s
  | .unallocUncond bits => Sys2Proof.Machine.execUnallocUncond bits s
  | .mrcTcmSize c rd => Sys2Proof.Machine.execMrcTcmSize c rd s
  | .mrcIdCode c rd op2 => Sys2Proof.Machine.execMrcIdCode c rd op2 s
  | .mrcControl c rd => Sys2Proof.Machine.execMrcControl c rd s
  | .mcrControl c rd => Sys2Proof.Machine.execMcrControl c rd s
  | .mcrWaitForInterrupt c rd => Sys2Proof.Machine.execMcrWaitForInterrupt c rd s
  | .mcrWaitForInterruptLegacy c rd => Sys2Proof.Machine.execMcrWaitForInterruptLegacy c rd s
  | .mcrDrainWriteBuffer c rd => Sys2Proof.Machine.execMcrDrainWriteBuffer c rd s
  | .mrcProcId c rd crm => Sys2Proof.Machine.execMrcProcId c rd crm s
  | .mcrProcId c rd crm => Sys2Proof.Machine.execMcrProcId c rd crm s
  | .mrcConfigControl c rd => Sys2Proof.Machine.execMrcConfigControl c rd s
  | .mcrConfigControl c rd => Sys2Proof.Machine.execMcrConfigControl c rd s
  | .mrcBistControl c rd => Sys2Proof.Machine.execMrcBistControl c rd s
  | .mcrBistControl c rd => Sys2Proof.Machine.execMcrBistControl c rd s
  | .mrcIBistAddress c rd => Sys2Proof.Machine.execMrcIBistAddress c rd s
  | .mcrIBistAddress c rd => Sys2Proof.Machine.execMcrIBistAddress c rd s
  | .mrcIBistGeneral c rd => Sys2Proof.Machine.execMrcIBistGeneral c rd s
  | .mcrIBistGeneral c rd => Sys2Proof.Machine.execMcrIBistGeneral c rd s
  | .mrcDBistAddress c rd => Sys2Proof.Machine.execMrcDBistAddress c rd s
  | .mcrDBistAddress c rd => Sys2Proof.Machine.execMcrDBistAddress c rd s
  | .mrcDBistGeneral c rd => Sys2Proof.Machine.execMrcDBistGeneral c rd s
  | .mcrDBistGeneral c rd => Sys2Proof.Machine.execMcrDBistGeneral c rd s
  | .p15Other c l op1 crn rd op2 crm => Sys2Proof.Machine.execP15Other c l op1 crn rd op2 crm s
  | .mrcCommsStatus c rd => Sys2Proof.Machine.execMrcCommsStatus c rd s
  | .mrcCommsData c rd => Sys2Proof.Machine.execMrcCommsData c rd s
  | .mcrCommsData c rd => Sys2Proof.Machine.execMcrCommsData c rd s
  | .mrcMonitorStatus c rd => Sys2Proof.Machine.execMrcMonitorStatus c rd s
  | .mcrMonitorStatus c rd => Sys2Proof.Machine.execMcrMonitorStatus c rd s
  | .p14Other c l op1 crn rd op2 crm => Sys2Proof.Machine.execP14Other c l op1 crn rd op2 crm s
  | .p15Transfer c hi lo => Sys2Proof.Machine.execP15Transfer c hi lo s
  | .p15Cdp c op1 crn crd op2 crm => Sys2Proof.Machine.execP15Cdp c op1 crn crd op2 crm s
  | .p14Transfer c hi lo => Sys2Proof.Machine.execP14Transfer c hi lo s
  | .p14Cdp c op1 crn crd op2 crm => Sys2Proof.Machine.execP14Cdp c op1 crn crd op2 crm s
  | .mcrr c rn rd cp op crm => Sys2Proof.Machine.execMcrr c rn rd cp op crm s
  | .mrrc c rn rd cp op crm => Sys2Proof.Machine.execMrrc c rn rd cp op crm s
  | .unallocCp c b20 rn rd cp lo => Sys2Proof.Machine.execUnallocCp c b20 rn rd cp lo s
  | .ldc c a n rn crd cp imm => Sys2Proof.Machine.execLdc c a n rn crd cp imm s
  | .stc c a n rn crd cp imm => Sys2Proof.Machine.execStc c a n rn crd cp imm s
  | .cdp c op1 crn crd cp op2 crm => Sys2Proof.Machine.execCdp c op1 crn crd cp op2 crm s
  | .mcr c op1 crn rd cp op2 crm => Sys2Proof.Machine.execMcr c op1 crn rd cp op2 crm s
  | .mrc c op1 crn rd cp op2 crm => Sys2Proof.Machine.execMrc c op1 crn rd cp op2 crm s
  | .swi c imm => Sys2Proof.Machine.execSwi c imm s
  | .b c imm => Sys2Proof.Machine.execB c imm s
  | .bl c imm => Sys2Proof.Machine.execBl c imm s
  | .ldmReturn c p u w rn list => Sys2Proof.Machine.execLdmReturn c p u w rn list s
  | .ldmUser c p u w rn list => Sys2Proof.Machine.execLdmUser c p u w rn list s
  | .ldm c p u w rn list => Sys2Proof.Machine.execLdm c p u w rn list s
  | .stmUser c p u w rn list => Sys2Proof.Machine.execStmUser c p u w rn list s
  | .stm c p u w rn list => Sys2Proof.Machine.execStm c p u w rn list s
  | .undefinedArm c hi lo => Sys2Proof.Machine.execUndefinedArm c hi lo s
  | .ldrtImm c u rn rd imm => Sys2Proof.Machine.execLdrtImm c u rn rd imm s
  | .ldrtReg c u rn rd sh k rm => Sys2Proof.Machine.execLdrtReg c u rn rd sh k rm s
  | .ldrbtImm c u rn rd imm => Sys2Proof.Machine.execLdrbtImm c u rn rd imm s
  | .ldrbtReg c u rn rd sh k rm => Sys2Proof.Machine.execLdrbtReg c u rn rd sh k rm s
  | .strtImm c u rn rd imm => Sys2Proof.Machine.execStrtImm c u rn rd imm s
  | .strtReg c u rn rd sh k rm => Sys2Proof.Machine.execStrtReg c u rn rd sh k rm s
  | .strbtImm c u rn rd imm => Sys2Proof.Machine.execStrbtImm c u rn rd imm s
  | .strbtReg c u rn rd sh k rm => Sys2Proof.Machine.execStrbtReg c u rn rd sh k rm s
  | .ldrImm c x u rn rd imm => Sys2Proof.Machine.execLdrImm c x u rn rd imm s
  | .ldrReg c x u rn rd sh k rm => Sys2Proof.Machine.execLdrReg c x u rn rd sh k rm s
  | .ldrbImm c x u rn rd imm => Sys2Proof.Machine.execLdrbImm c x u rn rd imm s
  | .ldrbReg c x u rn rd sh k rm => Sys2Proof.Machine.execLdrbReg c x u rn rd sh k rm s
  | .strImm c x u rn rd imm => Sys2Proof.Machine.execStrImm c x u rn rd imm s
  | .strReg c x u rn rd sh k rm => Sys2Proof.Machine.execStrReg c x u rn rd sh k rm s
  | .strbImm c x u rn rd imm => Sys2Proof.Machine.execStrbImm c x u rn rd imm s
  | .strbReg c x u rn rd sh k rm => Sys2Proof.Machine.execStrbReg c x u rn rd sh k rm s
  | .mul c sf rd sbz rs rm => Sys2Proof.Machine.execMul c sf rd sbz rs rm s
  | .mla c sf rd rn rs rm => Sys2Proof.Machine.execMla c sf rd rn rs rm s
  | .unallocArith c b21 b20 rn rd rs rm => Sys2Proof.Machine.execUnallocArith c b21 b20 rn rd rs rm s
  | .umull c sf rdHi rdLo rs rm => Sys2Proof.Machine.execUmull c sf rdHi rdLo rs rm s
  | .umlal c sf rdHi rdLo rs rm => Sys2Proof.Machine.execUmlal c sf rdHi rdLo rs rm s
  | .smull c sf rdHi rdLo rs rm => Sys2Proof.Machine.execSmull c sf rdHi rdLo rs rm s
  | .smlal c sf rdHi rdLo rs rm => Sys2Proof.Machine.execSmlal c sf rdHi rdLo rs rm s
  | .swp c rn rd sbz rm => Sys2Proof.Machine.execSwp c rn rd sbz rm s
  | .swpb c rn rd sbz rm => Sys2Proof.Machine.execSwpb c rn rd sbz rm s
  | .unallocExt c b23 b22 b21 b20 rn rd rs rm => Sys2Proof.Machine.execUnallocExt c b23 b22 b21 b20 rn rd rs rm s
  | .strhImm c p u w rn rd imm => Sys2Proof.Machine.execStrhImm c p u w rn rd imm s
  | .strhReg c p u w rn rd sbz rm => Sys2Proof.Machine.execStrhReg c p u w rn rd sbz rm s
  | .ldrdImm c p u w rn rd imm => Sys2Proof.Machine.execLdrdImm c p u w rn rd imm s
  | .ldrdReg c p u w rn rd sbz rm => Sys2Proof.Machine.execLdrdReg c p u w rn rd sbz rm s
  | .strdImm c p u w rn rd imm => Sys2Proof.Machine.execStrdImm c p u w rn rd imm s
  | .strdReg c p u w rn rd sbz rm => Sys2Proof.Machine.execStrdReg c p u w rn rd sbz rm s
  | .ldrhImm c p u w rn rd imm => Sys2Proof.Machine.execLdrhImm c p u w rn rd imm s
  | .ldrhReg c p u w rn rd sbz rm => Sys2Proof.Machine.execLdrhReg c p u w rn rd sbz rm s
  | .ldrsbImm c p u w rn rd imm => Sys2Proof.Machine.execLdrsbImm c p u w rn rd imm s
  | .ldrsbReg c p u w rn rd sbz rm => Sys2Proof.Machine.execLdrsbReg c p u w rn rd sbz rm s
  | .ldrshImm c p u w rn rd imm => Sys2Proof.Machine.execLdrshImm c p u w rn rd imm s
  | .ldrshReg c p u w rn rd sbz rm => Sys2Proof.Machine.execLdrshReg c p u w rn rd sbz rm s
  | .mrs c r sbo rd sbz1 sbz0 => Sys2Proof.Machine.execMrs c r sbo rd sbz1 sbz0 s
  | .msrReg c r mask sbo sbz rm => Sys2Proof.Machine.execMsrReg c r mask sbo sbz rm s
  | .bx c sbo2 sbo1 sbo0 rm => Sys2Proof.Machine.execBx c sbo2 sbo1 sbo0 rm s
  | .clz c sbo1 rd sbo0 rm => Sys2Proof.Machine.execClz c sbo1 rd sbo0 rm s
  | .blxReg c sbo2 sbo1 sbo0 rm => Sys2Proof.Machine.execBlxReg c sbo2 sbo1 sbo0 rm s
  | .qadd c rn rd sbz rm => Sys2Proof.Machine.execQadd c rn rd sbz rm s
  | .qsub c rn rd sbz rm => Sys2Proof.Machine.execQsub c rn rd sbz rm s
  | .qdadd c rn rd sbz rm => Sys2Proof.Machine.execQdadd c rn rd sbz rm s
  | .qdsub c rn rd sbz rm => Sys2Proof.Machine.execQdsub c rn rd sbz rm s
  | .bkpt c immHi immLo => Sys2Proof.Machine.execBkpt c immHi immLo s
  | .smlaxy c x y rd rn rs rm => Sys2Proof.Machine.execSmlaxy c x y rd rn rs rm s
  | .smlawy c y rd rn rs rm => Sys2Proof.Machine.execSmlawy c y rd rn rs rm s
  | .smulwy c y rd sbz rs rm => Sys2Proof.Machine.execSmulwy c y rd sbz rs rm s
  | .smlalxy c x y rdHi rdLo rs rm => Sys2Proof.Machine.execSmlalxy c x y rdHi rdLo rs rm s
  | .smulxy c x y rd sbz rs rm => Sys2Proof.Machine.execSmulxy c x y rd sbz rs rm s
  | .unallocMisc c b22 b21 rn rd rs b7 b6 b5 b4 rm => Sys2Proof.Machine.execUnallocMisc c b22 b21 rn rd rs b7 b6 b5 b4 rm s
  | .msrImm c r mask sbo rot imm => Sys2Proof.Machine.execMsrImm c r mask sbo rot imm s
  | .undefinedArm2 c b22 rn rd rot imm => Sys2Proof.Machine.execUndefinedArm2 c b22 rn rd rot imm s
  | .andShift c sf rn rd sh k rm => Sys2Proof.Machine.execAndShift c sf rn rd sh k rm s
  | .andRegShift c sf rn rd rs k rm => Sys2Proof.Machine.execAndRegShift c sf rn rd rs k rm s
  | .andImm c sf rn rd rot imm => Sys2Proof.Machine.execAndImm c sf rn rd rot imm s
  | .eorShift c sf rn rd sh k rm => Sys2Proof.Machine.execEorShift c sf rn rd sh k rm s
  | .eorRegShift c sf rn rd rs k rm => Sys2Proof.Machine.execEorRegShift c sf rn rd rs k rm s
  | .eorImm c sf rn rd rot imm => Sys2Proof.Machine.execEorImm c sf rn rd rot imm s
  | .subShift c sf rn rd sh k rm => Sys2Proof.Machine.execSubShift c sf rn rd sh k rm s
  | .subRegShift c sf rn rd rs k rm => Sys2Proof.Machine.execSubRegShift c sf rn rd rs k rm s
  | .subImm c sf rn rd rot imm => Sys2Proof.Machine.execSubImm c sf rn rd rot imm s
  | .rsbShift c sf rn rd sh k rm => Sys2Proof.Machine.execRsbShift c sf rn rd sh k rm s
  | .rsbRegShift c sf rn rd rs k rm => Sys2Proof.Machine.execRsbRegShift c sf rn rd rs k rm s
  | .rsbImm c sf rn rd rot imm => Sys2Proof.Machine.execRsbImm c sf rn rd rot imm s
  | .addShift c sf rn rd sh k rm => Sys2Proof.Machine.execAddShift c sf rn rd sh k rm s
  | .addRegShift c sf rn rd rs k rm => Sys2Proof.Machine.execAddRegShift c sf rn rd rs k rm s
  | .addImm c sf rn rd rot imm => Sys2Proof.Machine.execAddImm c sf rn rd rot imm s
  | .adcShift c sf rn rd sh k rm => Sys2Proof.Machine.execAdcShift c sf rn rd sh k rm s
  | .adcRegShift c sf rn rd rs k rm => Sys2Proof.Machine.execAdcRegShift c sf rn rd rs k rm s
  | .adcImm c sf rn rd rot imm => Sys2Proof.Machine.execAdcImm c sf rn rd rot imm s
  | .sbcShift c sf rn rd sh k rm => Sys2Proof.Machine.execSbcShift c sf rn rd sh k rm s
  | .sbcRegShift c sf rn rd rs k rm => Sys2Proof.Machine.execSbcRegShift c sf rn rd rs k rm s
  | .sbcImm c sf rn rd rot imm => Sys2Proof.Machine.execSbcImm c sf rn rd rot imm s
  | .rscShift c sf rn rd sh k rm => Sys2Proof.Machine.execRscShift c sf rn rd sh k rm s
  | .rscRegShift c sf rn rd rs k rm => Sys2Proof.Machine.execRscRegShift c sf rn rd rs k rm s
  | .rscImm c sf rn rd rot imm => Sys2Proof.Machine.execRscImm c sf rn rd rot imm s
  | .tstShift c rn sbz sh k rm => Sys2Proof.Machine.execTstShift c rn sbz sh k rm s
  | .tstRegShift c rn sbz rs k rm => Sys2Proof.Machine.execTstRegShift c rn sbz rs k rm s
  | .tstImm c rn sbz rot imm => Sys2Proof.Machine.execTstImm c rn sbz rot imm s
  | .teqShift c rn sbz sh k rm => Sys2Proof.Machine.execTeqShift c rn sbz sh k rm s
  | .teqRegShift c rn sbz rs k rm => Sys2Proof.Machine.execTeqRegShift c rn sbz rs k rm s
  | .teqImm c rn sbz rot imm => Sys2Proof.Machine.execTeqImm c rn sbz rot imm s
  | .cmpShift c rn sbz sh k rm => Sys2Proof.Machine.execCmpShift c rn sbz sh k rm s
  | .cmpRegShift c rn sbz rs k rm => Sys2Proof.Machine.execCmpRegShift c rn sbz rs k rm s
  | .cmpImm c rn sbz rot imm => Sys2Proof.Machine.execCmpImm c rn sbz rot imm s
  | .cmnShift c rn sbz sh k rm => Sys2Proof.Machine.execCmnShift c rn sbz sh k rm s
  | .cmnRegShift c rn sbz rs k rm => Sys2Proof.Machine.execCmnRegShift c rn sbz rs k rm s
  | .cmnImm c rn sbz rot imm => Sys2Proof.Machine.execCmnImm c rn sbz rot imm s
  | .orrShift c sf rn rd sh k rm => Sys2Proof.Machine.execOrrShift c sf rn rd sh k rm s
  | .orrRegShift c sf rn rd rs k rm => Sys2Proof.Machine.execOrrRegShift c sf rn rd rs k rm s
  | .orrImm c sf rn rd rot imm => Sys2Proof.Machine.execOrrImm c sf rn rd rot imm s
  | .movShift c sf sbz rd sh k rm => Sys2Proof.Machine.execMovShift c sf sbz rd sh k rm s
  | .movRegShift c sf sbz rd rs k rm => Sys2Proof.Machine.execMovRegShift c sf sbz rd rs k rm s
  | .movImm c sf sbz rd rot imm => Sys2Proof.Machine.execMovImm c sf sbz rd rot imm s
  | .bicShift c sf rn rd sh k rm => Sys2Proof.Machine.execBicShift c sf rn rd sh k rm s
  | .bicRegShift c sf rn rd rs k rm => Sys2Proof.Machine.execBicRegShift c sf rn rd rs k rm s
  | .bicImm c sf rn rd rot imm => Sys2Proof.Machine.execBicImm c sf rn rd rot imm s
  | .mvnShift c sf sbz rd sh k rm => Sys2Proof.Machine.execMvnShift c sf sbz rd sh k rm s
  | .mvnRegShift c sf sbz rd rs k rm => Sys2Proof.Machine.execMvnRegShift c sf sbz rd rs k rm s
  | .mvnImm c sf sbz rd rot imm => Sys2Proof.Machine.execMvnImm c sf sbz rd rot imm s
  | .tLslImm imm rm rd => Sys2Proof.Machine.execTLslImm imm rm rd s
  | .tLsrImm imm rm rd => Sys2Proof.Machine.execTLsrImm imm rm rd s
  | .tAsrImm imm rm rd => Sys2Proof.Machine.execTAsrImm imm rm rd s
  | .tAddReg rm rn rd => Sys2Proof.Machine.execTAddReg rm rn rd s
  | .tSubReg rm rn rd => Sys2Proof.Machine.execTSubReg rm rn rd s
  | .tAddImm3 imm rn rd => Sys2Proof.Machine.execTAddImm3 imm rn rd s
  | .tSubImm3 imm rn rd => Sys2Proof.Machine.execTSubImm3 imm rn rd s
  | .tMovImm rd imm => Sys2Proof.Machine.execTMovImm rd imm s
  | .tCmpImm rn imm => Sys2Proof.Machine.execTCmpImm rn imm s
  | .tAddImm8 rd imm => Sys2Proof.Machine.execTAddImm8 rd imm s
  | .tSubImm8 rd imm => Sys2Proof.Machine.execTSubImm8 rd imm s
  | .tAnd rm rd => Sys2Proof.Machine.execTAnd rm rd s
  | .tEor rm rd => Sys2Proof.Machine.execTEor rm rd s
  | .tLslReg rs rd => Sys2Proof.Machine.execTLslReg rs rd s
  | .tLsrReg rs rd => Sys2Proof.Machine.execTLsrReg rs rd s
  | .tAsrReg rs rd => Sys2Proof.Machine.execTAsrReg rs rd s
  | .tAdc rm rd => Sys2Proof.Machine.execTAdc rm rd s
  | .tSbc rm rd => Sys2Proof.Machine.execTSbc rm rd s
  | .tRorReg rs rd => Sys2Proof.Machine.execTRorReg rs rd s
  | .tTst rm rn => Sys2Proof.Machine.execTTst rm rn s
  | .tNeg rm rd => Sys2Proof.Machine.execTNeg rm rd s
  | .tCmpReg rm rn => Sys2Proof.Machine.execTCmpReg rm rn s
  | .tCmn rm rn => Sys2Proof.Machine.execTCmn rm rn s
  | .tOrr rm rd => Sys2Proof.Machine.execTOrr rm rd s
  | .tMul rm rd => Sys2Proof.Machine.execTMul rm rd s
  | .tBic rm rd => Sys2Proof.Machine.execTBic rm rd s
  | .tMvn rm rd => Sys2Proof.Machine.execTMvn rm rd s
  | .tAddHi rm rd => Sys2Proof.Machine.execTAddHi rm rd s
  | .tCmpHi rm rn => Sys2Proof.Machine.execTCmpHi rm rn s
  | .tMovHi rm rd => Sys2Proof.Machine.execTMovHi rm rd s
  | .tBx rm sbz => Sys2Proof.Machine.execTBx rm sbz s
  | .tBlxReg rm sbz => Sys2Proof.Machine.execTBlxReg rm sbz s
  | .tLdrLit rd imm => Sys2Proof.Machine.execTLdrLit rd imm s
  | .tStrReg rm rn rd => Sys2Proof.Machine.execTStrReg rm rn rd s
  | .tStrhReg rm rn rd => Sys2Proof.Machine.execTStrhReg rm rn rd s
  | .tStrbReg rm rn rd => Sys2Proof.Machine.execTStrbReg rm rn rd s
  | .tLdrsbReg rm rn rd => Sys2Proof.Machine.execTLdrsbReg rm rn rd s
  | .tLdrReg rm rn rd => Sys2Proof.Machine.execTLdrReg rm rn rd s
  | .tLdrhReg rm rn rd => Sys2Proof.Machine.execTLdrhReg rm rn rd s
  | .tLdrbReg rm rn rd => Sys2Proof.Machine.execTLdrbReg rm rn rd s
  | .tLdrshReg rm rn rd => Sys2Proof.Machine.execTLdrshReg rm rn rd s
  | .tStrImm imm rn rd => Sys2Proof.Machine.execTStrImm imm rn rd s
  | .tLdrImm imm rn rd => Sys2Proof.Machine.execTLdrImm imm rn rd s
  | .tStrbImm imm rn rd => Sys2Proof.Machine.execTStrbImm imm rn rd s
  | .tLdrbImm imm rn rd => Sys2Proof.Machine.execTLdrbImm imm rn rd s
  | .tStrhImm imm rn rd => Sys2Proof.Machine.execTStrhImm imm rn rd s
  | .tLdrhImm imm rn rd => Sys2Proof.Machine.execTLdrhImm imm rn rd s
  | .tStrSp rd imm => Sys2Proof.Machine.execTStrSp rd imm s
  | .tLdrSp rd imm => Sys2Proof.Machine.execTLdrSp rd imm s
  | .tAddPcImm rd imm => Sys2Proof.Machine.execTAddPcImm rd imm s
  | .tAddSpImm rd imm => Sys2Proof.Machine.execTAddSpImm rd imm s
  | .tAddSp imm => Sys2Proof.Machine.execTAddSp imm s
  | .tSubSp imm => Sys2Proof.Machine.execTSubSp imm s
  | .tPush r list => Sys2Proof.Machine.execTPush r list s
  | .tPop r list => Sys2Proof.Machine.execTPop r list s
  | .tBkpt imm => Sys2Proof.Machine.execTBkpt imm s
  | .unallocThumbMisc bits => Sys2Proof.Machine.execUnallocThumbMisc bits s
  | .tStmia rn list => Sys2Proof.Machine.execTStmia rn list s
  | .tLdmia rn list => Sys2Proof.Machine.execTLdmia rn list s
  | .undefinedThumb imm => Sys2Proof.Machine.execUndefinedThumb imm s
  | .tSwi imm => Sys2Proof.Machine.execTSwi imm s
  | .tBCond c imm => Sys2Proof.Machine.execTBCond c imm s
  | .tB imm => Sys2Proof.Machine.execTB imm s
  | .unallocBlxSuffix bits => Sys2Proof.Machine.execUnallocBlxSuffix bits s
  | .tBlxSuffix imm => Sys2Proof.Machine.execTBlxSuffix imm s
  | .tBlPrefix imm => Sys2Proof.Machine.execTBlPrefix imm s
  | .tBlSuffix imm => Sys2Proof.Machine.execTBlSuffix imm s

end Sys2Proof.Machine
end

