-- ==== Sys2Proof/Machine/Fetch.lean ====
section
/-! DEFINITION. Fetching an instruction (spec/20_memory.md rules R52, R55, R58, R64, R72, R76; R131 for the settings that
reach fetches late). -/

namespace Sys2Proof.Machine

/-- A fetch answers an instruction, or a stop. -/
abbrev FetchResult := Except Stop (Fetched × State)

/-- A fetch that never completes (R357). -/
def fetchHangs : FetchResult := .error (.fault .accessNeverCompletes)

/-! ## Reading one instruction -/

/-- The code is a Thumb one. -/
def Code.isThumb : Code → Bool
  | .arm _ => false
  | .thumb _ => true

/-- The routing of R52: a fetch from the DTCM window goes to the AHB. -/
def routeFetch (itcmOn : Bool) (a : Word) : Route :=
  if decide (a.extractLsb' 26 6 = 0) && itcmOn then .tcm .itcm else .ahb

/-- The instruction at an address within its word (R55). -/
def codeOfWord (thumb big : Bool) (a w : Word) : Code :=
  if thumb then .thumb ((takeLanes big .half a w).extractLsb' 0 16) else .arm w

/-- The byte lanes an instruction lies in. -/
def codeLanes (thumb big : Bool) (a : Word) : BitVec 4 := if thumb then accessLanes big .half a else 0b1111

/-- The external breakpoint request (R333), off with DBGEN LOW (R331). -/
def Pins.fetchMark (p : Pins) : Bool := p.dbgen && p.dbgiebkpt

/-- Some byte of the lanes was never written. -/
def Tcm.rawLanes (t : Tcm) (w : Nat) (lanes : BitVec 4) : Bool :=
  [0, 1, 2, 3].any fun k => lanes.getLsbD k && !t.init.contains (4 * w + k)

/-- A fetch from the ITCM. It is not matched against the write buffer (R76): where the buffer holds bytes of the word,
they have reached the memory by then or not, which is free (D10), and it does not wait for the buffer (DESIGN CHOICE,
entry 22). -/
def fetchItcm (big : Bool) (a : Word) (s : State) : FetchResult :=
  match s.tcmProblem .itcm with
  | some r => .error (.refuse r)
  | none =>
    if s.pins.itcmHung then fetchHangs else
    let w := s.tcmWord .itcm a
    let pending := decide (s.itcm.bufferedLanes w ≠ 0)
    let (drained, s) := if pending then s.takeBool else (false, s)
    let t := if drained then s.itcm.drain else s.itcm
    .ok ({ addr := a, code := codeOfWord s.thumb big a (t.mem.readWord w), err := s.itcm.err.contains w
           bkpt := s.pins.fetchMark, hit0 := false, hit1 := false
           raw := t.rawLanes w (codeLanes s.thumb big a) }, s)

/-- A word that a fetch reads on the AHB, with its marks (R72). -/
def State.ipbWord (s : State) (w : Word) : IpbEntry :=
  { addr := w, data := s.ahb.mem.readWord (wordNumber w), err := s.ahb.error .fetch (!s.privileged) w
    bkpt := s.pins.fetchMark }

/-- A burst of words upwards that does not cross a 1KB boundary (R72). -/
def State.burst (s : State) : Nat → Word → List IpbEntry
  | 0, _ => []
  | n + 1, w => s.ipbWord w :: (if (w + 4).extractLsb' 0 10 = 0 then [] else s.burst n (w + 4))

/-- How many words the prefetch buffer holds (R72): one when it is disabled, two in Thumb state, else four. -/
def State.ipbDepth (s : State) : Nat := if s.fetch.ipbOff then 1 else if s.thumb then 2 else 4

/-- Replace the prefetch buffer. -/
def State.setIpb (s : State) (l : List IpbEntry) : State := { s with fetch := { s.fetch with ipb := l } }

/-- Replace the pipeline. -/
def State.setPipe (s : State) (l : List Fetched) : State := { s with fetch := { s.fetch with pipe := l } }

/-- An instruction in a word of the prefetch buffer. -/
def State.ofIpb (s : State) (big : Bool) (a : Word) (e : IpbEntry) : Fetched :=
  { addr := a, code := codeOfWord s.thumb big a e.data, err := e.err, bkpt := e.bkpt
    hit0 := false, hit1 := false, raw := false }

/-- A Thumb instruction in the lower half of its word leaves the word in the buffer for the next one. -/
def keepsWord (s : State) (a : Word) : Bool := s.thumb && !a.getLsbD 1 && !s.fetch.ipbOff

/-- A fetch on the AHB: from the prefetch buffer, or by a burst, which waits for the AHB write buffer (R70, R72). -/
def fetchAhb (big : Bool) (a : Word) (s : State) : FetchResult :=
  let w := a &&& ~~~3
  match s.fetch.ipb.dropWhile (fun e => decide (e.addr ≠ w)) with
  | e :: rest => .ok (s.ofIpb big a e, s.setIpb (if keepsWord s a then e :: rest else rest))
  | [] =>
    if s.pins.ahbHung then fetchHangs else
    let s := s.drainAhb
    let l := s.burst s.ipbDepth w
    .ok (s.ofIpb big a (s.ipbWord w), s.setIpb (if keepsWord s a then l else l.drop 1))

/-! ## What the debug logic sees of a fetch (R333, R335) -/

/-- The cycle of a fetch. -/
def State.fetchCycle (s : State) (f : Fetched) : Seen :=
  { data := false, addr := f.addr, value := some (Code.word f.code), size := if s.thumb then .half else .word, write := false
    privileged := s.privileged }

/-- The units that match a fetch are marked on the instruction. -/
def State.withHits (s : State) (f : Fetched) : Fetched :=
  { f with hit0 := s.hit0 (s.fetchCycle f), hit1 := s.hit1 (s.fetchCycle f) }

/-- The external mark of a Thumb instruction is that of the 32-bit word both halves of which were fetched (R333). -/
def State.sharesMark (s : State) (f : Fetched) : Bool :=
  s.thumb && f.addr.getLsbD 1 && s.fetch.pipe.any fun p => decide (p.addr + 2 = f.addr) && p.bkpt

/-- Fetch(addr, n) (R64) under the settings that fetches use now, with the marks of the instruction. -/
def fetchAt (a : Word) (s : State) : FetchResult :=
  match (match routeFetch s.fetch.itcmOn a with
    | .tcm _ => fetchItcm s.fetch.big a s
    | .ahb => fetchAhb s.fetch.big a s) with
  | .error x => .error x
  | .ok (f, s') => .ok ({ s'.withHits f with bkpt := f.bkpt || s'.sharesMark f }, s'.noteCycle (s'.fetchCycle f))

/-- What a fetch that reads memory now gives, under given settings (R76). -/
def readNow (itcmOn big : Bool) (a : Word) (s : State) : FetchResult :=
  match routeFetch itcmOn a with
  | .tcm _ => fetchItcm big a s
  | .ahb =>
    if s.pins.ahbHung then fetchHangs else
    let s := s.drainAhb
    .ok (s.ofIpb big a (s.ipbWord (a &&& ~~~3)), s)

/-! ## The stream -/

/-- The address of the fetch: its low bits are forced to zero (R58). -/
def State.fetchAddr (s : State) : Word := s.pc &&& ~~~(s.len - 1)

/-- The core fetches the instruction behind those it holds, up to two behind the one in Execute (R76). The end of the
address space ends the stream; what the spec makes no claim about stops the reading ahead, not the machine. -/
def fetchAhead (s : State) : State :=
  match s.fetch.pipe.getLast? with
  | none => s
  | some l =>
    let a := l.addr + s.len
    if a = 0 ∨ 3 ≤ s.fetch.pipe.length then s
    else
      match fetchAt a s with
      | .error _ => s
      | .ok (f, s') => s'.setPipe (s'.fetch.pipe ++ [f])

/-- A nonsequential fetch: the prefetch buffer and the pipeline are flushed, and the CP15 settings reach fetches (R72,
R131). -/
def fetchNonseq (s : State) : FetchResult :=
  let s := { s with fetch := { nonseq := false, itcmOn := s.cp15.i, big := s.cp15.b, ipbOff := s.cp15.ipbOff
                               ipb := [], pipe := [] } }
  fetchAt s.fetchAddr s

/-- R131: while the settings that fetches use are not those of CP15, both must deliver the same instruction, with the same answer
of the bus (DEDUCED, entry 22). -/
def settingsAgree (a : Word) (s : State) : Except Stop Unit :=
  if s.fetch.itcmOn = s.cp15.i ∧ s.fetch.big = s.cp15.b then .ok ()
  else
    match readNow s.fetch.itcmOn s.fetch.big a s, readNow s.cp15.i s.cp15.b a s with
    | .ok (f, _), .ok (g, _) => if f.code = g.code ∧ f.err = g.err then .ok () else .error (.refuse .fetchSettingChange)
    | .error x, _ => .error x
    | _, .error x => .error x

/-- The mark of a unit on an instruction whose content has changed since its fetch: a unit that matched still does if the new
content is one it watches; one that only the old content kept from matching is asked again. A unit that compares no data keeps
its mark. (DESIGN CHOICE, entry 22: the spec does not say.) -/
def WatchUnit.rematch (u : WatchUnit) (old new : Code) (hit now : Bool) : Bool :=
  u.seesValue (some (Code.word new)) && (hit || (!u.seesValue (some (Code.word old)) && now))

/-- An instruction that was fetched, with the content that memory has now, as `f` reads it. Its error mark and its external mark
are those of its fetch (R64, R72). -/
def State.newContent (s : State) (held f : Fetched) : Fetched :=
  { held with
    code := f.code
    raw := f.raw
    hit0 := s.dbg.unit0.rematch held.code f.code held.hit0 (s.hit0 (s.fetchCycle f))
    hit1 := s.dbg.unit1.rematch held.code f.code held.hit1 (s.hit1 (s.fetchCycle f)) }

/-- An instruction that was read ahead: where memory has changed since, the old or the new content is executed, the
spec does not say which (D10). -/
def heldOrNew (held : Fetched) (s : State) : Fetched × State :=
  match readNow s.fetch.itcmOn s.fetch.big held.addr s with
  | .error _ => (held, s)
  | .ok (f, s') =>
    if f.code = held.code ∧ f.raw = held.raw then (held, s)
    else if s'.takeBool.1 then (held, { s with freeCtr := s'.takeBool.2.freeCtr })
    else (s'.newContent held f, s'.takeBool.2)

/-- A sequential fetch: from the pipeline, else from the prefetch buffer or memory. Sequential execution into address 0
is UNPREDICTABLE (R24). -/
def fetchSeq (s : State) : FetchResult :=
  let a := s.fetchAddr
  match settingsAgree a s with
  | .error x => .error x
  | .ok () =>
    match s.fetch.pipe.dropWhile (fun f => decide (f.addr ≠ a)) with
    | f :: rest => .ok (heldOrNew f (s.setPipe (f :: rest)))
    | [] =>
      if a = 0 then .error (.refuse .addressWrap)
      else
        match fetchAt a s with
        | .error x => .error x
        | .ok (f, s') => .ok (heldOrNew f (s'.setPipe []))

/-- The instruction to execute now: the core then holds it and the two behind it (R76). -/
def fetchNext (s : State) : FetchResult :=
  match (if s.fetch.nonseq then fetchNonseq s else fetchSeq s) with
  | .error x => .error x
  | .ok (f, s') =>
    .ok (f, fetchAhead (fetchAhead (s'.setPipe (f :: (s'.fetch.pipe.drop 1).take 2))))

/-- The prefetch buffer reads one more word (R72), if it has room, the word is in the same 1KB block and the bus answers. -/
def prefetchWord (s : State) : State :=
  match s.fetch.ipb.getLast? with
  | none => s
  | some e =>
    let w := e.addr + 4
    if s.pins.ahbHung || s.fetch.ipbOff || decide (s.ipbDepth ≤ s.fetch.ipb.length) || decide (w.extractLsb' 0 10 = 0) then s
    else
      let s := s.drainAhb
      s.setIpb (s.fetch.ipb ++ [s.ipbWord w])

/-! ## Breakpoints (R333, R335, R336) -/

/-- What the breakpoint logic says of an instruction that reaches Execute, from the marks of its fetch. A unit that compares data,
which monitor mode does not allow, is refused where it matches and ignored where it does not (DESIGN CHOICE, entry 33). -/
def breakpointAnswer (f : Fetched) (s : State) : WatchAnswer :=
  if !(f.hit0 || f.hit1 || f.bkpt) then .quiet
  else if s.dbg.monitor &&
      (f.bkpt || (f.hit0 && s.dbg.unit0.dataDependent) || (f.hit1 && s.dbg.unit1.dataDependent)) then .unsupported
  else .watched

end Sys2Proof.Machine
end

