-- ==== Sys2Proof/Machine/Events.lean ====
section
/-! DEFINITION. What the agents other than the core do between two instructions (spec/00_scope.md rule R11): pins, buffers,
BIST engines, other bus masters, the debugger (spec/61_debug_trace_test.md, D21) and reset (spec/70_reset_and_hazards.md
rules R350 to R352). -/

namespace Sys2Proof.Machine

/-! ## Scan chain 15 (R338) -/

/-- The value a read through scan chain 15 gives. -/
def State.setScanOut (s : State) (v : Word) : State := { s with dbg := { s.dbg with scanOut := v } }

/-- A read of a register through scan chain 15. -/
def scanRead (read : State → Word × State) (s : State) : Checked := .ok ((read s).2.setScanOut (read s).1)

/-- A read of a BIST general register through scan chain 15; peek data that never comes hangs it (R357). -/
def scanReadGeneral (side : Side) (s : State) : Checked :=
  if peekHangs s side then .error (.fault .accessNeverCompletes) else scanRead (bistReadGeneral side) s

/-- The address map of scan chain 15, Table 7-2 of R338; no other address is described. Bits [31:30] of the value stand in
for Opcode_2[2:1] of the c15 registers. -/
def scan15 (write : Bool) (addr : BitVec 6) (v : Word) (s : State) : Checked :=
  let sel := v.extractLsb' 30 2
  if addr = 0b000000 ∧ !write then scanRead (fun s => (idCode, s)) s
  else if addr = 0b000010 then if write then writeControl v s else scanRead readControl s
  else if addr = 0b111111 ∧ sel = 0b00 then
    if write then bistWriteControl v s else scanRead readBistControl s
  else if addr = 0b111110 ∧ sel = 0b01 then
    if write then bistWriteAddress .itcm v s else scanRead (bistReadAddress .itcm) s
  else if addr = 0b111111 ∧ sel = 0b01 then
    if write then bistWriteGeneral .itcm v s else scanReadGeneral .itcm s
  else if addr = 0b111110 ∧ sel = 0b11 then
    if write then bistWriteAddress .dtcm v s else scanRead (bistReadAddress .dtcm) s
  else if addr = 0b111111 ∧ sel = 0b11 then
    if write then bistWriteGeneral .dtcm v s else scanReadGeneral .dtcm s
  else .error (.refuse .debuggerUndescribed)

/-! ## The debugger (D21) -/

/-- A debugger's action: nothing with DBGEN LOW (R331). -/
def debuggerDoes (k : State → Checked) (s : State) : Checked := if s.pins.dbgen then k s else .ok s

/-- A debugger's action that the spec describes for debug state only. -/
def inDebugOnly (k : State → Checked) : State → Checked :=
  debuggerDoes fun s => failIf (!s.dbg.inDebug) .debuggerUndescribed (k s)

/-- The debugger writes the Data Read Register and sets R; with R set it must wait (R337). -/
def dccSend (v : Word) (s : State) : Checked :=
  failIf s.dcc.r .debuggerUndescribed (.ok { s with dcc := { s.dcc with readData := v, r := true } })

/-- The core leaves debug state and goes on at `pc`, which must be aligned for the instruction set state (R24, R330,
R334). -/
def restart (s : State) : Checked :=
  failIf (decide (s.pc &&& (s.len - 1) ≠ 0)) .branchTarget
    (.ok (({ s with dbg := { s.dbg with inDebug := false } } : State).jump s.pc))

/-- SUB PC, PC, #n is scanned in and the core restarted (R25): it goes on n bytes below the PC that the debugger found, which
after a watchpoint in ARM state is the next instruction for n = 20. Described for ARM state only. -/
def restartBack (n : BitVec 12) (s : State) : Checked :=
  failIf s.thumb .debuggerUndescribed (restart { s with pc := s.dbg.pc - n.setWidth 32 })

/-- The debugger inserts a store, which goes through the normal routing; the core ignores aborts (R334). An ARM store of a
halfword at an odd address with A = 0 is UNPREDICTABLE (U-G8). -/
def debugStore (size : Size) (addr v : Word) (s : State) : Checked :=
  failIf (decide (size = .half) && misaligned .half addr && !s.cp15.a) .unaligned <|
  match memWrite false false false size addr v s with
  | .ok _ s' => .ok s'
  | .abort s' => .ok s'
  | .stop x => .error x

/-- The debugger inserts a load into a general register (R334). The core ignores an abort; the value is then free, as is that
of an unaligned halfword (R57; DESIGN CHOICE, entry 33). -/
def debugLoad (index : Fin 30) (size : Size) (addr : Word) (s : State) : Checked :=
  let set (v : Word) (s : State) : Checked := .ok { s with regs := s.regs.set index v }
  match memRead false size addr s with
  | .ok v s' =>
    match size with
    | .word => set (rotateLoaded addr v) s'
    | .half => if misaligned .half addr then set s'.takeWord.1 s'.takeWord.2 else set v s'
    | .byte => set v s'
  | .abort s' => set s'.takeWord.1 s'.takeWord.2
  | .stop x => .error x

/-- A value for the CPSR from the debugger: a legal mode, reserved bits zero (R23, D6). -/
def debugCpsr (v : Word) (s : State) : Checked :=
  failIf (!(Mode.ofBits (Psr.m v)).isSome) .illegalMode
    (failIf (decide (Psr.reserved v ≠ 0)) .psrReservedBits (.ok (s.setCpsr v)))

/-- A value for an SPSR from the debugger. -/
def debugSpsr (k : Fin 5) (v : Word) (s : State) : Checked :=
  failIf (decide (Psr.reserved v ≠ 0)) .psrReservedBits (.ok { s with spsr := s.spsr.set k v })

/-- The debugger chooses where execution goes on. -/
def debugPc (v : Word) (s : State) : Checked :=
  failIf (decide (v &&& (s.len - 1) ≠ 0)) .branchTarget (.ok (s.jump v))

/-- DBGnTRST (R350), at any time: the EmbeddedICE-RT state is reset and the comms flags are zero (D18). The core stays in
debug state if it is there, with Debug Status bit 4 and the PC that the debugger finds; the value last read through scan
chain 15 stays; a watched access that waits for debug entry is forgotten; the comms data registers hold any value: DESIGN CHOICE
(entry 33; N-10-8). -/
def dbgTrst (s : State) : Checked :=
  let (a, s) := s.takeWord
  let (b, s) := s.takeWord
  .ok { s with dbg := { Debug.reset with inDebug := s.dbg.inDebug, fromThumb := s.dbg.fromThumb, pc := s.dbg.pc
                                         scanOut := s.dbg.scanOut }
               dcc := { readData := a, writeData := b, r := false, w := false, dbgAbt := false }
               chain := false }

/-! ## HRESETn (R350 to R352) -/

/-- The words of free values from a place on. -/
def freeWords {n : Nat} (start : Nat) : Vector Word n := Vector.ofFn fun i => Config.freeWord (start + i.val)

/-- A BIST engine after HRESETn: control and status bits 0, the phase idle and the failure record invalid (R346, R352), the rest
not stated (N-10-5, N-10-7). A peek or poke that waits for the TCM is dropped (DESIGN CHOICE, entry 32). -/
def Bist.afterReset (k : Nat) : Bist :=
  { Bist.reset with
    size := (Config.freeWord k).extractLsb' 0 11, addrReg := Config.freeWord (k + 1)
    dataReg := Config.freeWord (k + 2), failAddr := Config.freeWord (k + 3), failData := Config.freeWord (k + 4)
    peekData := Config.freeWord (k + 5) }

/-- CP14 after HRESETn (D18): the flags are zero in a system without a debugger, else not stated. -/
def Dcc.afterReset (debugger : Bool) (k : Nat) : Dcc :=
  { readData := Config.freeWord k, writeData := Config.freeWord (k + 1), r := debugger && Config.freeBool k
    w := debugger && Config.freeBool (k + 1), dbgAbt := debugger && Config.freeBool (k + 2) }

/-- A write buffer at HRESETn is empty afterwards (D18); whether its entries were written is not stated. -/
def Tcm.afterReset (t : Tcm) (k : Nat) : Tcm :=
  { (if Config.freeBool k then t.drain else t) with buf := [], hold := false }

/-- The AHB at HRESETn. -/
def Ahb.afterReset (h : Ahb) (k : Nat) : Ahb := { (if Config.freeBool k then h.drain else h) with buf := [], due := 0 }

/-- EmbeddedICE-RT at HRESETn: not in debug state; whether the units are reset is not stated (N-10-8). A watched access that
waits for debug entry is dropped, and the value last read through scan chain 15 stays (DESIGN CHOICE, entry 32). -/
def Debug.afterReset (d : Debug) (k : Nat) : Debug :=
  { (if Config.freeBool k then Debug.reset else d) with inDebug := false, watch := .none, scanOut := d.scanOut }

/-- The bits of a status register that are not reserved (R26). -/
def psrImplemented : Word := 0xF80000FF

/-- HRESETn is driven LOW and released (R351, R352): what the spec leaves undefined is free (U-G17). The memories keep
their contents (R53). -/
def hReset (s : State) : State :=
  let n := s.freeCtr
  let cp15 : Cp15 :=
    { Cp15.reset s.pins with
      procId := Config.freeWord (n + 36), bistI := .afterReset (n + 37), bistD := .afterReset (n + 43) }
  { s with
    regs := freeWords n
    pc := if s.pins.vinithi then 0xFFFF0000 else 0
    cpsr := partlyFree 0xD3 0x07FFFFFF (Config.freeWord (n + 35))
    spsr := (freeWords (n + 30)).map (· &&& psrImplemented)
    cp15 := cp15
    dcc := .afterReset s.pins.dbgen (n + 49)
    dbg := s.dbg.afterReset (n + 52)
    itcm := s.itcm.afterReset (n + 53)
    dtcm := s.dtcm.afterReset (n + 54)
    ahb := s.ahb.afterReset (n + 55)
    fetch := .reset cp15
    standby := false
    cp := { s.cp with waiting := none }
    userXfer := false
    fiqServed := false
    irqServed := false
    prefixes := []
    freeCtr := n + 56 }

/-! ## Events -/

/-- A unit is programmed: the chain latch of unit 1 is cleared with it (R336; PRESUMED, entry 44). -/
def setUnit (second : Bool) (u : WatchUnit) (s : State) : State :=
  if second then { s with dbg := { s.dbg with unit1 := u }, chain := false }
  else { s with dbg := { s.dbg with unit0 := u } }

/-- An interface stops answering, or answers again: then a peek or poke that waits for it completes (R348). -/
def setHung (itcm dtcm ahb : Bool) (s : State) : State :=
  let answers (hung : Bool) (side : Side) (s : State) : State := if hung then s else finishAccess side s
  answers dtcm .dtcm
    (answers itcm .itcm { s with pins := { s.pins with itcmHung := itcm, dtcmHung := dtcm, ahbHung := ahb } })

/-- What the fetch logic does on its own: nothing in debug state, where the interfaces are idle (R334). -/
def fetchesAlone (k : State → State) (s : State) : State := if s.dbg.inDebug then s else k s

/-- What one event does. The write buffers drain and the BIST engines work in debug state too (DESIGN CHOICE, entry 33: R334 speaks
of the accesses of the core). -/
def applyEvent (e : EnvEvent) (s : State) : Checked :=
  match e with
  | .lines nfiq nirq => .ok { s with pins := { s.pins with nfiq := nfiq, nirq := nirq } }
  | .fifofull level => .ok { s with pins := { s.pins with fifofull := level } }
  | .edbgrq level => .ok { s with pins := { s.pins with edbgrq := level } }
  | .dbgiebkpt level => .ok { s with pins := { s.pins with dbgiebkpt := level } }
  | .dbgdewpt level => .ok { s with pins := { s.pins with dbgdewpt := level } }
  | .dbgext levels => .ok { s with pins := { s.pins with dbgext := levels } }
  | .bus e => .ok (applyBus e s)
  | .between batches => .ok { s with between := s.between ++ batches }
  | .hung itcm dtcm ahb => .ok (setHung itcm dtcm ahb s)
  | .etmen level => .ok { s with pins := { s.pins with etmen := level } }
  | .prefetch => .ok (fetchesAlone prefetchWord s)
  | .pipelineFetch => .ok (fetchesAlone fetchAhead s)
  | .bistTick side => bistTick side s
  | .cpReply num r => .ok (s.mapCp num fun u => { u with replies := u.replies ++ [r] })
  | .dccSend v => debuggerDoes (dccSend v) s
  | .dccReceive => debuggerDoes (fun s => .ok { s with dcc := { s.dcc with w := false } }) s
  | .scan15 write addr v => inDebugOnly (scan15 write addr v) s
  | .setUnit second u => debuggerDoes (fun s => .ok (setUnit second u s)) s
  | .setDebugControl monitor request =>
    debuggerDoes (fun s => .ok { s with dbg := { s.dbg with monitor := monitor, request := request } }) s
  | .restart => inDebugOnly restart s
  | .restartBack n => inDebugOnly (restartBack n) s
  | .debugReg index v => inDebugOnly (fun s => .ok { s with regs := s.regs.set index v }) s
  | .debugPc v => inDebugOnly (debugPc v) s
  | .debugCpsr v => inDebugOnly (debugCpsr v) s
  | .debugSpsr index v => inDebugOnly (debugSpsr index v) s
  | .debugLoad index size addr => inDebugOnly (debugLoad index size addr) s
  | .debugStore size addr v => inDebugOnly (debugStore size addr v) s
  | .dbgTrst => dbgTrst s
  | .reset => .ok (hReset s)

/-- What the events of one batch do, in order. -/
def applyEvents : List EnvEvent → State → Checked
  | [], s => .ok s
  | e :: es, s => (applyEvent e s).bind (applyEvents es)

/-! ## The start of a step -/

/-- The ETM interface registers follow the outputs while ETMEN is HIGH, and hold their values while it is LOW (R340,
R366); they take their copy once a step (DESIGN CHOICE, entry 42). -/
def State.clockEtm (s : State) : State :=
  if s.pins.etmen then
    { s with etm := { bigend := s.cp15.b, hivecs := s.cp15.v, dbgack := s.pins.dbgen && s.dbg.inDebug, pins := s.out
                      procId := s.cp15.procId, procIdWr := s.cp15.procIdWr } }
  else s

/-- The pins that show what a step does, before it has done anything. -/
def Outputs.idle (o : Outputs) : Outputs :=
  { o with
    instrValid := false, instrExec := false, fetchReq := false, fetchSeq := false, dataReq := false, dataSeq := false
    dataAbort := false, cpPass := false, cpLateCancel := false, rng0 := false, rng1 := false }

/-- The pulses of the last step end (R135, R363, R364; DEDUCED, entry 41). -/
def State.endPulses (s : State) : State := { s with cp15 := { s.cp15 with procIdWr := false }, out := s.out.idle }

/-- An interrupt's handler has been left when the mode is no longer the interrupt's (R342; DESIGN CHOICE, entry 35). -/
def State.leaveHandlers (s : State) : State :=
  { s with fiqServed := s.fiqServed && decide (s.mode = .fiq), irqServed := s.irqServed && decide (s.mode = .irq) }

/-- What is due of the AHB write buffer writes itself out, a word a step (R70; DESIGN CHOICE, entry 18), in debug state too
(DESIGN CHOICE, entry 33). -/
def State.settleAhb (s : State) : State := if s.ahb.due = 0 then s else s.drainAhbOne

/-- What the clock does at the start of a step, before anything else acts. -/
def State.begun (s : State) : State := s.clockEtm.endPulses.leaveHandlers.settleAhb

/-- The start of a step: the clock, then the other agents. -/
def beginStep (s : State) : Checked :=
  let s := s.begun
  match s.env with
  | [] => .ok s
  | batch :: rest => applyEvents batch { s with env := rest }

end Sys2Proof.Machine
end

