-- ==== Sys2Proof/Machine/Hazard.lean ====
section
/-! DEFINITION. The condition and the registers of an instruction, for the one software hazard of the core (U-G11): the
instruction after a user-bank LDM or STM must not access a banked register (spec/46_arm_load_store_multiple.md rules R238,
R241). -/

namespace Sys2Proof.Machine

/-! ## Conditions -/

/-- The condition field of the instructions that have one (R100); BKPT must have AL (R105). -/
def condOf : Instr → Option Cond
  | .pldImm _ _ _ => none
  | .pldReg _ _ _ _ _ => none
  | .blxImm _ _ => none
  | .unallocUncondLsm _ => none
  | .unallocUncondMcrr _ => none
  | .ldc2 _ _ _ _ _ _ => none
  | .stc2 _ _ _ _ _ _ => none
  | .cdp2 _ _ _ _ _ _ => none
  | .mcr2 _ _ _ _ _ _ => none
  | .mrc2 _ _ _ _ _ _ => none
  | .unallocUncond _ => none
  | .mrcTcmSize c _ => some c
  | .mrcIdCode c _ _ => some c
  | .mrcControl c _ => some c
  | .mcrControl c _ => some c
  | .mcrWaitForInterrupt c _ => some c
  | .mcrWaitForInterruptLegacy c _ => some c
  | .mcrDrainWriteBuffer c _ => some c
  | .mrcProcId c _ _ => some c
  | .mcrProcId c _ _ => some c
  | .mrcConfigControl c _ => some c
  | .mcrConfigControl c _ => some c
  | .mrcBistControl c _ => some c
  | .mcrBistControl c _ => some c
  | .mrcIBistAddress c _ => some c
  | .mcrIBistAddress c _ => some c
  | .mrcIBistGeneral c _ => some c
  | .mcrIBistGeneral c _ => some c
  | .mrcDBistAddress c _ => some c
  | .mcrDBistAddress c _ => some c
  | .mrcDBistGeneral c _ => some c
  | .mcrDBistGeneral c _ => some c
  | .p15Other c _ _ _ _ _ _ => some c
  | .mrcCommsStatus c _ => some c
  | .mrcCommsData c _ => some c
  | .mcrCommsData c _ => some c
  | .mrcMonitorStatus c _ => some c
  | .mcrMonitorStatus c _ => some c
  | .p14Other c _ _ _ _ _ _ => some c
  | .p15Transfer c _ _ => some c
  | .p15Cdp c _ _ _ _ _ => some c
  | .p14Transfer c _ _ => some c
  | .p14Cdp c _ _ _ _ _ => some c
  | .mcrr c _ _ _ _ _ => some c
  | .mrrc c _ _ _ _ _ => some c
  | .unallocCp c _ _ _ _ _ => some c
  | .ldc c _ _ _ _ _ _ => some c
  | .stc c _ _ _ _ _ _ => some c
  | .cdp c _ _ _ _ _ _ => some c
  | .mcr c _ _ _ _ _ _ => some c
  | .mrc c _ _ _ _ _ _ => some c
  | .swi c _ => some c
  | .b c _ => some c
  | .bl c _ => some c
  | .ldmReturn c _ _ _ _ _ => some c
  | .ldmUser c _ _ _ _ _ => some c
  | .ldm c _ _ _ _ _ => some c
  | .stmUser c _ _ _ _ _ => some c
  | .stm c _ _ _ _ _ => some c
  | .undefinedArm c _ _ => some c
  | .ldrtImm c _ _ _ _ => some c
  | .ldrtReg c _ _ _ _ _ _ => some c
  | .ldrbtImm c _ _ _ _ => some c
  | .ldrbtReg c _ _ _ _ _ _ => some c
  | .strtImm c _ _ _ _ => some c
  | .strtReg c _ _ _ _ _ _ => some c
  | .strbtImm c _ _ _ _ => some c
  | .strbtReg c _ _ _ _ _ _ => some c
  | .ldrImm c _ _ _ _ _ => some c
  | .ldrReg c _ _ _ _ _ _ _ => some c
  | .ldrbImm c _ _ _ _ _ => some c
  | .ldrbReg c _ _ _ _ _ _ _ => some c
  | .strImm c _ _ _ _ _ => some c
  | .strReg c _ _ _ _ _ _ _ => some c
  | .strbImm c _ _ _ _ _ => some c
  | .strbReg c _ _ _ _ _ _ _ => some c
  | .mul c _ _ _ _ _ => some c
  | .mla c _ _ _ _ _ => some c
  | .unallocArith c _ _ _ _ _ _ => some c
  | .umull c _ _ _ _ _ => some c
  | .umlal c _ _ _ _ _ => some c
  | .smull c _ _ _ _ _ => some c
  | .smlal c _ _ _ _ _ => some c
  | .swp c _ _ _ _ => some c
  | .swpb c _ _ _ _ => some c
  | .unallocExt c _ _ _ _ _ _ _ _ => some c
  | .strhImm c _ _ _ _ _ _ => some c
  | .strhReg c _ _ _ _ _ _ _ => some c
  | .ldrdImm c _ _ _ _ _ _ => some c
  | .ldrdReg c _ _ _ _ _ _ _ => some c
  | .strdImm c _ _ _ _ _ _ => some c
  | .strdReg c _ _ _ _ _ _ _ => some c
  | .ldrhImm c _ _ _ _ _ _ => some c
  | .ldrhReg c _ _ _ _ _ _ _ => some c
  | .ldrsbImm c _ _ _ _ _ _ => some c
  | .ldrsbReg c _ _ _ _ _ _ _ => some c
  | .ldrshImm c _ _ _ _ _ _ => some c
  | .ldrshReg c _ _ _ _ _ _ _ => some c
  | .mrs c _ _ _ _ _ => some c
  | .msrReg c _ _ _ _ _ => some c
  | .bx c _ _ _ _ => some c
  | .clz c _ _ _ _ => some c
  | .blxReg c _ _ _ _ => some c
  | .qadd c _ _ _ _ => some c
  | .qsub c _ _ _ _ => some c
  | .qdadd c _ _ _ _ => some c
  | .qdsub c _ _ _ _ => some c
  | .bkpt _ _ _ => none
  | .smlaxy c _ _ _ _ _ _ => some c
  | .smlawy c _ _ _ _ _ => some c
  | .smulwy c _ _ _ _ _ => some c
  | .smlalxy c _ _ _ _ _ _ => some c
  | .smulxy c _ _ _ _ _ _ => some c
  | .unallocMisc c _ _ _ _ _ _ _ _ _ _ => some c
  | .msrImm c _ _ _ _ _ => some c
  | .undefinedArm2 c _ _ _ _ _ => some c
  | .andShift c _ _ _ _ _ _ => some c
  | .andRegShift c _ _ _ _ _ _ => some c
  | .andImm c _ _ _ _ _ => some c
  | .eorShift c _ _ _ _ _ _ => some c
  | .eorRegShift c _ _ _ _ _ _ => some c
  | .eorImm c _ _ _ _ _ => some c
  | .subShift c _ _ _ _ _ _ => some c
  | .subRegShift c _ _ _ _ _ _ => some c
  | .subImm c _ _ _ _ _ => some c
  | .rsbShift c _ _ _ _ _ _ => some c
  | .rsbRegShift c _ _ _ _ _ _ => some c
  | .rsbImm c _ _ _ _ _ => some c
  | .addShift c _ _ _ _ _ _ => some c
  | .addRegShift c _ _ _ _ _ _ => some c
  | .addImm c _ _ _ _ _ => some c
  | .adcShift c _ _ _ _ _ _ => some c
  | .adcRegShift c _ _ _ _ _ _ => some c
  | .adcImm c _ _ _ _ _ => some c
  | .sbcShift c _ _ _ _ _ _ => some c
  | .sbcRegShift c _ _ _ _ _ _ => some c
  | .sbcImm c _ _ _ _ _ => some c
  | .rscShift c _ _ _ _ _ _ => some c
  | .rscRegShift c _ _ _ _ _ _ => some c
  | .rscImm c _ _ _ _ _ => some c
  | .tstShift c _ _ _ _ _ => some c
  | .tstRegShift c _ _ _ _ _ => some c
  | .tstImm c _ _ _ _ => some c
  | .teqShift c _ _ _ _ _ => some c
  | .teqRegShift c _ _ _ _ _ => some c
  | .teqImm c _ _ _ _ => some c
  | .cmpShift c _ _ _ _ _ => some c
  | .cmpRegShift c _ _ _ _ _ => some c
  | .cmpImm c _ _ _ _ => some c
  | .cmnShift c _ _ _ _ _ => some c
  | .cmnRegShift c _ _ _ _ _ => some c
  | .cmnImm c _ _ _ _ => some c
  | .orrShift c _ _ _ _ _ _ => some c
  | .orrRegShift c _ _ _ _ _ _ => some c
  | .orrImm c _ _ _ _ _ => some c
  | .movShift c _ _ _ _ _ _ => some c
  | .movRegShift c _ _ _ _ _ _ => some c
  | .movImm c _ _ _ _ _ => some c
  | .bicShift c _ _ _ _ _ _ => some c
  | .bicRegShift c _ _ _ _ _ _ => some c
  | .bicImm c _ _ _ _ _ => some c
  | .mvnShift c _ _ _ _ _ _ => some c
  | .mvnRegShift c _ _ _ _ _ _ => some c
  | .mvnImm c _ _ _ _ _ => some c
  | .tLslImm _ _ _ => none
  | .tLsrImm _ _ _ => none
  | .tAsrImm _ _ _ => none
  | .tAddReg _ _ _ => none
  | .tSubReg _ _ _ => none
  | .tAddImm3 _ _ _ => none
  | .tSubImm3 _ _ _ => none
  | .tMovImm _ _ => none
  | .tCmpImm _ _ => none
  | .tAddImm8 _ _ => none
  | .tSubImm8 _ _ => none
  | .tAnd _ _ => none
  | .tEor _ _ => none
  | .tLslReg _ _ => none
  | .tLsrReg _ _ => none
  | .tAsrReg _ _ => none
  | .tAdc _ _ => none
  | .tSbc _ _ => none
  | .tRorReg _ _ => none
  | .tTst _ _ => none
  | .tNeg _ _ => none
  | .tCmpReg _ _ => none
  | .tCmn _ _ => none
  | .tOrr _ _ => none
  | .tMul _ _ => none
  | .tBic _ _ => none
  | .tMvn _ _ => none
  | .tAddHi _ _ => none
  | .tCmpHi _ _ => none
  | .tMovHi _ _ => none
  | .tBx _ _ => none
  | .tBlxReg _ _ => none
  | .tLdrLit _ _ => none
  | .tStrReg _ _ _ => none
  | .tStrhReg _ _ _ => none
  | .tStrbReg _ _ _ => none
  | .tLdrsbReg _ _ _ => none
  | .tLdrReg _ _ _ => none
  | .tLdrhReg _ _ _ => none
  | .tLdrbReg _ _ _ => none
  | .tLdrshReg _ _ _ => none
  | .tStrImm _ _ _ => none
  | .tLdrImm _ _ _ => none
  | .tStrbImm _ _ _ => none
  | .tLdrbImm _ _ _ => none
  | .tStrhImm _ _ _ => none
  | .tLdrhImm _ _ _ => none
  | .tStrSp _ _ => none
  | .tLdrSp _ _ => none
  | .tAddPcImm _ _ => none
  | .tAddSpImm _ _ => none
  | .tAddSp _ => none
  | .tSubSp _ => none
  | .tPush _ _ => none
  | .tPop _ _ => none
  | .tBkpt _ => none
  | .unallocThumbMisc _ => none
  | .tStmia _ _ => none
  | .tLdmia _ _ => none
  | .undefinedThumb _ => none
  | .tSwi _ => none
  | .tBCond c _ => some c
  | .tB _ => none
  | .unallocBlxSuffix _ => none
  | .tBlxSuffix _ => none
  | .tBlPrefix _ => none
  | .tBlSuffix _ => none

/-! ## The registers an instruction names -/

/-- The general registers that an instruction reads or writes, R8 to R14 at least: the list of LDM (2) and STM (2) too, and
the R14 that an instruction writes whose effect is an exception. -/
def namedRegs : Instr → List Reg
  | .pldImm _ _ _ => []
  | .pldReg _ _ _ _ _ => []
  | .blxImm _ _ => [lrReg]
  | .unallocUncondLsm _ => []
  | .unallocUncondMcrr _ => []
  | .ldc2 _ _ rn _ _ _ => [rn]
  | .stc2 _ _ rn _ _ _ => [rn]
  | .cdp2 _ _ _ _ _ _ => []
  | .mcr2 _ _ rd _ _ _ => [rd]
  | .mrc2 _ _ rd _ _ _ => [rd]
  | .unallocUncond _ => []
  | .mrcTcmSize _ rd => [rd]
  | .mrcIdCode _ rd _ => [rd]
  | .mrcControl _ rd => [rd]
  | .mcrControl _ rd => [rd]
  | .mcrWaitForInterrupt _ rd => [rd]
  | .mcrWaitForInterruptLegacy _ rd => [rd]
  | .mcrDrainWriteBuffer _ rd => [rd]
  | .mrcProcId _ rd _ => [rd]
  | .mcrProcId _ rd _ => [rd]
  | .mrcConfigControl _ rd => [rd]
  | .mcrConfigControl _ rd => [rd]
  | .mrcBistControl _ rd => [rd]
  | .mcrBistControl _ rd => [rd]
  | .mrcIBistAddress _ rd => [rd]
  | .mcrIBistAddress _ rd => [rd]
  | .mrcIBistGeneral _ rd => [rd]
  | .mcrIBistGeneral _ rd => [rd]
  | .mrcDBistAddress _ rd => [rd]
  | .mcrDBistAddress _ rd => [rd]
  | .mrcDBistGeneral _ rd => [rd]
  | .mcrDBistGeneral _ rd => [rd]
  | .p15Other _ _ _ _ rd _ _ => [rd]
  | .mrcCommsStatus _ rd => [rd]
  | .mrcCommsData _ rd => [rd]
  | .mcrCommsData _ rd => [rd]
  | .mrcMonitorStatus _ rd => [rd]
  | .mcrMonitorStatus _ rd => [rd]
  | .p14Other _ _ _ _ rd _ _ => [rd]
  | .p15Transfer _ _ _ => []
  | .p15Cdp _ _ _ _ _ _ => []
  | .p14Transfer _ _ _ => []
  | .p14Cdp _ _ _ _ _ _ => []
  | .mcrr _ rn rd _ _ _ => [rn, rd]
  | .mrrc _ rn rd _ _ _ => [rn, rd]
  | .unallocCp _ _ _ _ _ _ => []
  | .ldc _ _ _ rn _ _ _ => [rn]
  | .stc _ _ _ rn _ _ _ => [rn]
  | .cdp _ _ _ _ _ _ _ => []
  | .mcr _ _ _ rd _ _ _ => [rd]
  | .mrc _ _ _ rd _ _ _ => [rd]
  | .swi _ _ => [lrReg]
  | .b _ _ => []
  | .bl _ _ => [lrReg]
  | .ldmReturn _ _ _ _ rn list => rn :: listRegs list
  | .ldmUser _ _ _ _ rn list => rn :: listRegs list
  | .ldm _ _ _ _ rn list => rn :: listRegs list
  | .stmUser _ _ _ _ rn list => rn :: listRegs list
  | .stm _ _ _ _ rn list => rn :: listRegs list
  | .undefinedArm _ _ _ => [lrReg]
  | .ldrtImm _ _ rn rd _ => [rn, rd]
  | .ldrtReg _ _ rn rd _ _ rm => [rn, rd, rm]
  | .ldrbtImm _ _ rn rd _ => [rn, rd]
  | .ldrbtReg _ _ rn rd _ _ rm => [rn, rd, rm]
  | .strtImm _ _ rn rd _ => [rn, rd]
  | .strtReg _ _ rn rd _ _ rm => [rn, rd, rm]
  | .strbtImm _ _ rn rd _ => [rn, rd]
  | .strbtReg _ _ rn rd _ _ rm => [rn, rd, rm]
  | .ldrImm _ _ _ rn rd _ => [rn, rd]
  | .ldrReg _ _ _ rn rd _ _ rm => [rn, rd, rm]
  | .ldrbImm _ _ _ rn rd _ => [rn, rd]
  | .ldrbReg _ _ _ rn rd _ _ rm => [rn, rd, rm]
  | .strImm _ _ _ rn rd _ => [rn, rd]
  | .strReg _ _ _ rn rd _ _ rm => [rn, rd, rm]
  | .strbImm _ _ _ rn rd _ => [rn, rd]
  | .strbReg _ _ _ rn rd _ _ rm => [rn, rd, rm]
  | .mul _ _ rd _ rs rm => [rd, rs, rm]
  | .mla _ _ rd rn rs rm => [rd, rn, rs, rm]
  | .unallocArith _ _ _ _ _ _ _ => []
  | .umull _ _ rdHi rdLo rs rm => [rdHi, rdLo, rs, rm]
  | .umlal _ _ rdHi rdLo rs rm => [rdHi, rdLo, rs, rm]
  | .smull _ _ rdHi rdLo rs rm => [rdHi, rdLo, rs, rm]
  | .smlal _ _ rdHi rdLo rs rm => [rdHi, rdLo, rs, rm]
  | .swp _ rn rd _ rm => [rn, rd, rm]
  | .swpb _ rn rd _ rm => [rn, rd, rm]
  | .unallocExt _ _ _ _ _ _ _ _ _ => []
  | .strhImm _ _ _ _ rn rd _ => [rn, rd]
  | .strhReg _ _ _ _ rn rd _ rm => [rn, rd, rm]
  | .ldrdImm _ _ _ _ rn rd _ => [rn, rd, rd + 1]
  | .ldrdReg _ _ _ _ rn rd _ rm => [rn, rd, rm, rd + 1]
  | .strdImm _ _ _ _ rn rd _ => [rn, rd, rd + 1]
  | .strdReg _ _ _ _ rn rd _ rm => [rn, rd, rm, rd + 1]
  | .ldrhImm _ _ _ _ rn rd _ => [rn, rd]
  | .ldrhReg _ _ _ _ rn rd _ rm => [rn, rd, rm]
  | .ldrsbImm _ _ _ _ rn rd _ => [rn, rd]
  | .ldrsbReg _ _ _ _ rn rd _ rm => [rn, rd, rm]
  | .ldrshImm _ _ _ _ rn rd _ => [rn, rd]
  | .ldrshReg _ _ _ _ rn rd _ rm => [rn, rd, rm]
  | .mrs _ _ _ rd _ _ => [rd]
  | .msrReg _ _ _ _ _ rm => [rm]
  | .bx _ _ _ _ rm => [rm]
  | .clz _ _ rd _ rm => [rd, rm]
  | .blxReg _ _ _ _ rm => [lrReg, rm]
  | .qadd _ rn rd _ rm => [rn, rd, rm]
  | .qsub _ rn rd _ rm => [rn, rd, rm]
  | .qdadd _ rn rd _ rm => [rn, rd, rm]
  | .qdsub _ rn rd _ rm => [rn, rd, rm]
  | .bkpt _ _ _ => [lrReg]
  | .smlaxy _ _ _ rd rn rs rm => [rd, rn, rs, rm]
  | .smlawy _ _ rd rn rs rm => [rd, rn, rs, rm]
  | .smulwy _ _ rd _ rs rm => [rd, rs, rm]
  | .smlalxy _ _ _ rdHi rdLo rs rm => [rdHi, rdLo, rs, rm]
  | .smulxy _ _ _ rd _ rs rm => [rd, rs, rm]
  | .unallocMisc _ _ _ _ _ _ _ _ _ _ _ => []
  | .msrImm _ _ _ _ _ _ => []
  | .undefinedArm2 _ _ _ _ _ _ => [lrReg]
  | .andShift _ _ rn rd _ _ rm => [rn, rd, rm]
  | .andRegShift _ _ rn rd rs _ rm => [rn, rd, rs, rm]
  | .andImm _ _ rn rd _ _ => [rn, rd]
  | .eorShift _ _ rn rd _ _ rm => [rn, rd, rm]
  | .eorRegShift _ _ rn rd rs _ rm => [rn, rd, rs, rm]
  | .eorImm _ _ rn rd _ _ => [rn, rd]
  | .subShift _ _ rn rd _ _ rm => [rn, rd, rm]
  | .subRegShift _ _ rn rd rs _ rm => [rn, rd, rs, rm]
  | .subImm _ _ rn rd _ _ => [rn, rd]
  | .rsbShift _ _ rn rd _ _ rm => [rn, rd, rm]
  | .rsbRegShift _ _ rn rd rs _ rm => [rn, rd, rs, rm]
  | .rsbImm _ _ rn rd _ _ => [rn, rd]
  | .addShift _ _ rn rd _ _ rm => [rn, rd, rm]
  | .addRegShift _ _ rn rd rs _ rm => [rn, rd, rs, rm]
  | .addImm _ _ rn rd _ _ => [rn, rd]
  | .adcShift _ _ rn rd _ _ rm => [rn, rd, rm]
  | .adcRegShift _ _ rn rd rs _ rm => [rn, rd, rs, rm]
  | .adcImm _ _ rn rd _ _ => [rn, rd]
  | .sbcShift _ _ rn rd _ _ rm => [rn, rd, rm]
  | .sbcRegShift _ _ rn rd rs _ rm => [rn, rd, rs, rm]
  | .sbcImm _ _ rn rd _ _ => [rn, rd]
  | .rscShift _ _ rn rd _ _ rm => [rn, rd, rm]
  | .rscRegShift _ _ rn rd rs _ rm => [rn, rd, rs, rm]
  | .rscImm _ _ rn rd _ _ => [rn, rd]
  | .tstShift _ rn _ _ _ rm => [rn, rm]
  | .tstRegShift _ rn _ rs _ rm => [rn, rs, rm]
  | .tstImm _ rn _ _ _ => [rn]
  | .teqShift _ rn _ _ _ rm => [rn, rm]
  | .teqRegShift _ rn _ rs _ rm => [rn, rs, rm]
  | .teqImm _ rn _ _ _ => [rn]
  | .cmpShift _ rn _ _ _ rm => [rn, rm]
  | .cmpRegShift _ rn _ rs _ rm => [rn, rs, rm]
  | .cmpImm _ rn _ _ _ => [rn]
  | .cmnShift _ rn _ _ _ rm => [rn, rm]
  | .cmnRegShift _ rn _ rs _ rm => [rn, rs, rm]
  | .cmnImm _ rn _ _ _ => [rn]
  | .orrShift _ _ rn rd _ _ rm => [rn, rd, rm]
  | .orrRegShift _ _ rn rd rs _ rm => [rn, rd, rs, rm]
  | .orrImm _ _ rn rd _ _ => [rn, rd]
  | .movShift _ _ _ rd _ _ rm => [rd, rm]
  | .movRegShift _ _ _ rd rs _ rm => [rd, rs, rm]
  | .movImm _ _ _ rd _ _ => [rd]
  | .bicShift _ _ rn rd _ _ rm => [rn, rd, rm]
  | .bicRegShift _ _ rn rd rs _ rm => [rn, rd, rs, rm]
  | .bicImm _ _ rn rd _ _ => [rn, rd]
  | .mvnShift _ _ _ rd _ _ rm => [rd, rm]
  | .mvnRegShift _ _ _ rd rs _ rm => [rd, rs, rm]
  | .mvnImm _ _ _ rd _ _ => [rd]
  | .tLslImm _ _ _ => []
  | .tLsrImm _ _ _ => []
  | .tAsrImm _ _ _ => []
  | .tAddReg _ _ _ => []
  | .tSubReg _ _ _ => []
  | .tAddImm3 _ _ _ => []
  | .tSubImm3 _ _ _ => []
  | .tMovImm _ _ => []
  | .tCmpImm _ _ => []
  | .tAddImm8 _ _ => []
  | .tSubImm8 _ _ => []
  | .tAnd _ _ => []
  | .tEor _ _ => []
  | .tLslReg _ _ => []
  | .tLsrReg _ _ => []
  | .tAsrReg _ _ => []
  | .tAdc _ _ => []
  | .tSbc _ _ => []
  | .tRorReg _ _ => []
  | .tTst _ _ => []
  | .tNeg _ _ => []
  | .tCmpReg _ _ => []
  | .tCmn _ _ => []
  | .tOrr _ _ => []
  | .tMul _ _ => []
  | .tBic _ _ => []
  | .tMvn _ _ => []
  | .tAddHi rm rd => [rm, rd]
  | .tCmpHi rm rn => [rm, rn]
  | .tMovHi rm rd => [rm, rd]
  | .tBx rm _ => [rm]
  | .tBlxReg rm _ => [lrReg, rm]
  | .tLdrLit _ _ => []
  | .tStrReg _ _ _ => []
  | .tStrhReg _ _ _ => []
  | .tStrbReg _ _ _ => []
  | .tLdrsbReg _ _ _ => []
  | .tLdrReg _ _ _ => []
  | .tLdrhReg _ _ _ => []
  | .tLdrbReg _ _ _ => []
  | .tLdrshReg _ _ _ => []
  | .tStrImm _ _ _ => []
  | .tLdrImm _ _ _ => []
  | .tStrbImm _ _ _ => []
  | .tLdrbImm _ _ _ => []
  | .tStrhImm _ _ _ => []
  | .tLdrhImm _ _ _ => []
  | .tStrSp _ _ => [spReg]
  | .tLdrSp _ _ => [spReg]
  | .tAddPcImm _ _ => []
  | .tAddSpImm _ _ => [spReg]
  | .tAddSp _ => [spReg]
  | .tSubSp _ => [spReg]
  | .tPush r _ => spReg :: (if r then [lrReg] else [])
  | .tPop _ _ => [spReg]
  | .tBkpt _ => [lrReg]
  | .unallocThumbMisc _ => []
  | .tStmia _ _ => []
  | .tLdmia _ _ => []
  | .undefinedThumb _ => [lrReg]
  | .tSwi _ => [lrReg]
  | .tBCond _ _ => []
  | .tB _ => []
  | .unallocBlxSuffix _ => []
  | .tBlxSuffix _ => [lrReg]
  | .tBlPrefix _ => [lrReg]
  | .tBlSuffix _ => [lrReg]

/-- The registers that the current mode has a bank of (R22). -/
def bankedIn (m : Mode) (r : Reg) : Bool :=
  match m with
  | .usr => false
  | .sys => false
  | .fiq => decide (8 ≤ r.toNat) && decide (r.toNat ≤ 14)
  | .irq => decide (r = 13) || decide (r = 14)
  | .svc => decide (r = 13) || decide (r = 14)
  | .abt => decide (r = 13) || decide (r = 14)
  | .und => decide (r = 13) || decide (r = 14)

/-- An instruction without a condition field, or with a condition that holds. -/
def condPasses (i : Instr) (s : State) : Bool := (condOf i).all (Cond.holds · s.cpsr)

/-- A coprocessor instruction that no coprocessor accepts: it takes the Undefined Instruction exception, which writes an R14
(R149, R315). -/
def cpRefuses (i : Instr) (s : State) : Bool := decide (s.cpEnds i = some .absent)

/-- The instruction accesses a banked register right after a user-bank transfer (U-G11); one whose condition fails accesses
nothing (R100). Which accesses count is DEDUCED (entry 28). -/
def bankHazard (i : Instr) (s : State) : Bool :=
  s.userXfer && condPasses i s &&
    ((namedRegs i).any (bankedIn s.mode) || (cpRefuses i s && bankedIn s.mode lrReg))

end Sys2Proof.Machine
end

