-- ==== Sys2Proof/Machine/Boundary.lean ====
section
/-! DEFINITION. What happens at an instruction boundary: debug requests, standby, the ETM stall, interrupts, the fetch and
its marks, and the execution of one instruction (spec/60_exceptions.md rules R317 to R324, R328;
spec/61_debug_trace_test.md rules R333, R336, R341, R342). -/

namespace Sys2Proof.Machine

/-! ## Debug state (R333, R334) -/

/-- The core enters debug state; `s.pc` is where it goes on, `found` what the debugger finds in the PC. A coprocessor
instruction that waits is abandoned: only with an interrupt pending can there be one (R148, `coreStep`). The spec says
neither what becomes of a wait for interrupt that is the one further instruction after a watched access (R132, R333) nor
whether the restriction on banked registers after LDM (2) or STM (2) outlives the entry (R238): here both end (DESIGN CHOICE,
entries 33 and 28). -/
def enterDebugAt (found : Word) (s : State) : State :=
  let s := s.abandonCp
  { s with dbg := { s.dbg with inDebug := true, fromThumb := s.thumb, pc := found, watch := .none }
           standby := false, userXfer := false }

/-- Entry at a breakpoint or a debug request: what the debugger finds in the PC is not stated, so free (DESIGN CHOICE,
entry 33). -/
def enterDebug (s : State) : State := enterDebugAt s.takeWord.1 s.takeWord.2

/-- Entry after a watchpoint: the PC is five instructions on from the next instruction (R25); the figure for Thumb state, 10
bytes, is DEDUCED (entry 33). -/
def enterDebugWatched (s : State) : State := enterDebugAt (s.pc + 5 * s.len) s

/-- DBGRQI, as far as DBGEN lets it through (R45, R331). -/
def State.debugRequest (s : State) : Bool := s.pins.dbgen && (s.pins.edbgrq || s.dbg.request)

/-- The end of an instruction: after a watched access one more instruction completes, then the core enters debug state (R333).
Where one word of an instruction is watched and another aborts, that one more is the first of the abort handler (DESIGN CHOICE,
entry 33). Monitor mode that the debugger has set since the access changes nothing: debug state is entered all the same (DESIGN
CHOICE, entry 33: R330 has no support for mixing the modes). -/
def endInstruction (s : State) : State :=
  match s.dbg.watch with
  | .none => s
  | .hit => { s with dbg := { s.dbg with watch := .oneMore } }
  | .oneMore => enterDebugWatched s

/-- The end of an exception entry between instructions: after a watched access debug state follows at once (R324). -/
def endEntry (s : State) : State :=
  match s.dbg.watch with
  | .none => s
  | .hit | .oneMore => enterDebugWatched s

/-! ## The ETM and the interrupt lines (R321, R328, R342) -/

/-- nFIQ is LOW and FIFOFULL does not hold it off. -/
def State.fiqLine (s : State) : Bool := !s.pins.nfiq && !(s.pins.fifofull && s.cp15.fm)

/-- nIRQ is LOW and FIFOFULL does not hold it off. -/
def State.irqLine (s : State) : Bool := !s.pins.nirq && !(s.pins.fifofull && s.cp15.im)

/-- An interrupt line ends standby whether or not the interrupt is enabled (R132). -/
def State.wakes (s : State) : Bool := s.fiqLine || s.irqLine

/-- stalled_by_etm (R342): with a mask bit clear, its line or the handler that its request entered keeps the core running. -/
def State.etmStall (s : State) : Bool :=
  s.pins.fifofull && !(!s.cp15.fm && (!s.pins.nfiq || (s.fiqServed && decide (s.mode = .fiq)))) &&
    !(!s.cp15.im && (!s.pins.nirq || (s.irqServed && decide (s.mode = .irq))))

/-- FIQ is taken (R320, R321). -/
def State.takesFiq (s : State) : Bool := s.fiqLine && !Psr.f s.cpsr

/-- IRQ is taken (R319, R321): FIQ has priority (R323). -/
def State.takesIrq (s : State) : Bool := s.irqLine && !Psr.i s.cpsr

/-- An exception entry between instructions: a coprocessor instruction that waits is abandoned (R151), and an interrupt's
handler begins (R342). A word that the abandoned instruction has moved may have been watched: R324 then gives debug state
right after the entry, as it does for any watchpoint with an interrupt pending (DEDUCED, entry 33). -/
def State.enter (s : State) (k : Exc) : State :=
  endEntry
    (({ s.abandonCp with userXfer := false, fiqServed := s.fiqServed || decide (k = .fiq)
                         irqServed := s.irqServed || decide (k = .irq) } : State).raise k)

/-! ## One instruction -/

/-- A coprocessor instruction, by its word (R101, R154 to R161). -/
def Code.isCoprocessor : Code → Bool
  | .arm w => w.extractLsb' 24 4 = 0b1100 || w.extractLsb' 24 4 = 0b1101 || w.extractLsb' 24 4 = 0b1110
  | .thumb _ => false

/-- CPINSTR, ETMIA, ETMID and ETMITBIT show the instruction in Execute, with the state it was fetched in (R146, R366). That
ETMIA and ETMID show that one, and not the one that a fetch of the same step reads, is a DESIGN CHOICE (entry 42). -/
def State.inExecute (s : State) (f : Fetched) : State :=
  { s with out := { s.out with ia := f.addr, instr := Code.word f.code, tbit := Code.isThumb f.code } }

/-- The pins after an instruction that started from `s`: ETMINSTRVALID, DBGINSTREXEC, CPPASS (R146, R364), and the first and
the last cycle of its handshake on CHSDE and CHSEX (R148; DEDUCED, entry 41). -/
def State.executed (t : State) (i : Instr) (s : State) : State :=
  let passes := condPasses i s
  { t with out := { t.out with
      instrValid := true
      instrExec := passes && t.cp.waiting.isNone
      cpPass := passes && Code.isCoprocessor (encode i)
      chsDecode :=
        match s.cpBegins i with
        | some r => if passes && s.cp.waiting.isNone then r.code else t.out.chsDecode
        | none => t.out.chsDecode
      chsExecute :=
        match s.cpEnds i with
        | some r => if passes then r.code else t.out.chsExecute
        | none => t.out.chsExecute } }

/-- Execute a decoded instruction. One that a coprocessor keeps waiting has not ended (R148), and still follows what it
followed (U-G11). -/
def runInstr (i : Instr) (s : State) : Result :=
  if bankHazard i s then .refused .bankedAfterUserTransfer
  else
    match exec i { s with userXfer := false } with
    | .next t => .next (if t.cp.waiting.isSome then { t.executed i s with userXfer := s.userXfer }
        else endInstruction (t.executed i s))
    | .fault f => .fault f
    | .refused r => .refused r

/-- Execute what was fetched: an aborted fetch first (R317), then a breakpoint (R324), then the instruction. A breakpoint on
the one further instruction after a watched access (R333) is obeyed: debug state is entered there, the instruction is not
executed, and the watched access is forgotten (DESIGN CHOICE, entry 33: the spec does not say which rule wins). -/
def runFetched (f : Fetched) (s : State) : Result :=
  if f.err then .next (s.enter .prefetchAbort)
  else
    match breakpointAnswer f s with
    | .unsupported => .refused .monitorUnsupported
    | .watched => if s.dbg.monitor then .next (s.setDbgAbt.enter .prefetchAbort) else .next (enterDebug s)
    | .quiet => if f.raw then .refused .itcmUninitialised else runInstr (decode f.code) s

/-- A coprocessor busy-waits for ever and nothing more is to happen, no interrupt in particular: the core hangs (R357). -/
def State.busyForever (s : State) (p : CpWait) : Bool :=
  s.env.isEmpty && decide ((s.cpReplies (cpNumber p.instr)).head? = some .waitForever)

/-- A coprocessor instruction that waits is in Execute already; else fetch and execute the next instruction. -/
def nextInstruction (s : State) : Result :=
  match s.cp.waiting with
  | some p => if s.busyForever p then .fault .accessNeverCompletes else runInstr (decode (.arm p.instr)) s
  | none =>
    match fetchNext s with
    | .error x => x.result
    | .ok (f, s') => runFetched f (s'.inExecute f)

/-- A core that is not stopped: the ETM stall, on instruction boundaries only (R341), then FIQ, IRQ, the next instruction
(R321, R323). -/
def awakeStep (s : State) : Result :=
  if s.etmStall && s.cp.waiting.isNone then .next s
  else if s.takesFiq then .next (s.enter .fiq)
  else if s.takesIrq then .next (s.enter .irq)
  else nextInstruction s

/-- The core enters debug state at a debug request when the instruction in Execute is completed (R333): one that a coprocessor
keeps waiting goes on, unless an interrupt is pending, which abandons it (R148). -/
def debugRequested (s : State) : Result :=
  if s.cp.waiting.isSome && !(s.takesFiq || s.takesIrq) then nextInstruction s else .next (enterDebug s)

/-- The core's part of a step. A debug request has priority over interrupts (R324); in monitor mode it is UNPREDICTABLE
(U-61-1). One that comes right after a watched access is obeyed at once, before the one further instruction of R333
(DESIGN CHOICE, entry 33: the spec does not say which rule wins). -/
def coreStep (s : State) : Result :=
  if s.dbg.inDebug then .next s
  else if s.debugRequest then if s.dbg.monitor then .refused .monitorRequest else debugRequested s
  else if s.standby && !s.wakes then .next s
  else awakeStep { s with standby := false }

/-! ## Placing a word where the next fetch reads it -/

/-- Store an instruction of a given state (ARM or Thumb) at the place the next fetch reads, and make that fetch
nonsequential. Write buffers are empty afterwards, so that nothing covers the word (R76), and no coprocessor instruction
waits. -/
def placeCode (c : Code) (s : State) : State :=
  let thumb := match c with | .arm _ => false | .thumb _ => true
  let s := (s.setCpsr (Psr.setT s.cpsr thumb)).drainAll
  let a := s.fetchAddr
  let lanes := codeLanes thumb s.cp15.b a
  let data := match c with | .arm w => w | .thumb h => putLanes s.cp15.b .half a (h.setWidth 32)
  let s := { s with fetch := { s.fetch with nonseq := true, ipb := [], pipe := [] }
                    cp := { s.cp with waiting := none } }
  match routeFetch s.cp15.i a with
  | .tcm side => s.setTcm side ((s.tcm side).commit (s.tcmWord side a) lanes data)
  | .ahb => { s with ahb := { s.ahb with mem := s.ahb.mem.writeWord (wordNumber a) lanes data } }

end Sys2Proof.Machine
end

