-- ==== Sys2Proof/Machine/Step.lean ====
section
/-! DEFINITION. One step of the machine. -/

namespace Sys2Proof.Machine

/-- One step: what the other agents do, then what the core does (R11, R321, R323). -/
def step (s : State) : Host.Outcome State Fault Refusal :=
  match beginStep s with
  | .error x => x.result
  | .ok s' => coreStep s'

/-- The state with an instruction stored where the next step fetches: a number of at most 16 bits is a Thumb halfword, a
longer one an ARM word, as the opcode table numbers them (entry 11). -/
def State.withFetchWord (s : State) (nbits w : Nat) : State := placeCode (tableCode nbits w) s

end Sys2Proof.Machine
end

