-- ==== Sys2Proof/Safety.lean ====
section
/-! DEFINITION. The terms that claims about the machine are stated in: legal states, the settled contents of memory, what an
access touches, and the arithmetic rules written a second time from the spec. -/

namespace Sys2Proof.Machine

/-! ## Legal states -/

/-- A TCM is in canonical form: its bytes, and the list of the bytes written since power-up. -/
def Tcm.inForm (t : Tcm) : Prop := Memory.wf t.mem ∧ t.init.Pairwise (· < ·)

/-- The three memories are in canonical form, so that equal memories are equal data. -/
def State.memoryInForm (s : State) : Prop := s.itcm.inForm ∧ s.dtcm.inForm ∧ Memory.wf s.ahb.mem

/-- The CPSR holds a legal mode (R23), the reserved bits of every status register are zero (R26, D6). -/
def State.statusLegal (s : State) : Prop :=
  (Mode.ofBits (Psr.m s.cpsr)).isSome = true ∧ Psr.reserved s.cpsr = 0 ∧ ∀ k : Fin 5, Psr.reserved s.spsr[k] = 0

/-- Outside debug state the pc is aligned for the instruction set state (R24, R98). -/
def State.pcAligned (s : State) : Prop :=
  s.dbg.inDebug = false → if s.thumb then s.pc.getLsbD 0 = false else s.pc.extractLsb' 0 2 = 0

/-- Outside debug state the pc is aligned for the instruction set state (R24, R98), and what the core has fetched to
execute in sequence was fetched in that state (R76). -/
def State.streamLegal (s : State) : Prop :=
  s.pcAligned ∧
    (s.dbg.inDebug = false → s.fetch.nonseq = false → ∀ f ∈ s.fetch.pipe, Code.isThumb f.code = s.thumb)

/-- The buffers hold no more than the hardware has room for: two entries in a TCM write buffer (R66), four addresses and
eight words in the AHB write buffer (R70), four words in the prefetch buffer (R72), three instructions in the pipeline
(R76). -/
def State.buffersFit (s : State) : Prop :=
  s.itcm.buf.length ≤ 2 ∧ s.dtcm.buf.length ≤ 2 ∧ s.ahb.buf.length ≤ 4 ∧ s.ahb.bufWords ≤ 8 ∧
    (∀ e ∈ s.ahb.buf, e.data ≠ []) ∧ s.fetch.ipb.length ≤ 4 ∧ s.fetch.pipe.length ≤ 3

/-- A TCM under BIST is functionally disabled, and only an enabled engine runs (R38, R130, R344). -/
def State.bistApart (s : State) : Prop :=
  ∀ side : Side, ((s.bist side).enable = true → s.cp15.tcmOn side = false) ∧
    ((s.bist side).running = true → (s.bist side).enable = true)

/-! ## Memory as the core will see it -/

/-- A byte of one of the three memories. -/
inductive Place
  | itcm (offset : Nat)
  | dtcm (offset : Nat)
  | ahb (address : Nat)
deriving DecidableEq, Repr

/-- A byte of memory once the write buffers have been written out: what the core's own reads see (R73 (1)). -/
def State.byteAt (s : State) : Place → Byte
  | .itcm o => s.itcm.drain.mem.read o
  | .dtcm o => s.dtcm.drain.mem.read o
  | .ahb a => s.ahb.drain.mem.read a

/-- The place of byte lane `k` of the word that a data access at `a` reaches (R50, R51). -/
def State.placeOf (s : State) (a : Word) (k : Nat) : Place :=
  match s.routeData a with
  | .tcm .itcm => .itcm (4 * s.tcmWord .itcm a + k)
  | .tcm .dtcm => .dtcm (4 * s.tcmWord .dtcm a + k)
  | .ahb => .ahb (4 * wordNumber a + k)

/-- The word that a data access at `a` reaches. -/
def State.settledWord (s : State) (a : Word) : Word :=
  wordOfLanes (s.byteAt (s.placeOf a 3)) (s.byteAt (s.placeOf a 2)) (s.byteAt (s.placeOf a 1)) (s.byteAt (s.placeOf a 0))

/-- What MemRead(addr, n) returns where it does not abort (R54, R57, R62). -/
def State.loaded (s : State) (size : Size) (addr : Word) : Word :=
  takeLanes s.cp15.b size (alignTo size addr) (s.settledWord (alignTo size addr))

/-- No watchpoint can match (R331, R333, R334). -/
def State.unwatched (s : State) : Prop :=
  s.pins.dbgen = false ∨ s.dbg.inDebug = true ∨
    ((s.dbg.unit0.enable && s.dbg.unit0.onData) = false ∧ (s.dbg.unit1.enable && s.dbg.unit1.onData) = false ∧
      s.pins.dbgdewpt = false)

/-- xTCMERROR answers a data read (R65, R67). -/
def State.tcmReadError (s : State) (side : Side) (size : Size) (a : Word) : Bool :=
  ((s.tcm side).waited (s.cp15.order side)).readError (s.tcmWord side a) (accessLanes s.cp15.b size a)

/-- The memory behind an address answers a read with an error (R62). -/
def State.readFails (s : State) (force : Bool) (size : Size) (a : Word) : Bool :=
  match s.routeData a with
  | .tcm side => s.tcmReadError side size a
  | .ahb => s.ahb.error .read (s.userAccess force) a

/-- The memory behind an address answers a write with an error: only an unbuffered AHB write can (R63). -/
def State.writeFails (s : State) (force swap : Bool) (a : Word) : Bool :=
  match s.routeData a with
  | .tcm _ => false
  | .ahb => !s.buffered a swap && s.ahb.error .write (s.userAccess force) a

/-- What an address selects can be reached: a TCM exists with a size the spec lists (D9, U-T16), and the interface does not
hold the access for ever (R357). -/
def State.mapped (s : State) (a : Word) : Bool :=
  match s.routeData a with
  | .tcm side => (s.tcmProblem side).isNone && !s.pins.tcmHung side
  | .ahb => !s.pins.ahbHung

/-- A read at `addr` that completes without an exception. -/
def State.readable (s : State) (force : Bool) (size : Size) (addr : Word) : Prop :=
  s.unwatched ∧ s.alignFault size addr = false ∧ s.mapped (alignTo size addr) = true ∧
    s.readFails force size (alignTo size addr) = false

/-- A write at `addr` that completes without an exception. -/
def State.writable (s : State) (force swap : Bool) (size : Size) (addr : Word) : Prop :=
  s.unwatched ∧ s.alignFault size addr = false ∧ s.mapped (alignTo size addr) = true ∧
    s.writeFails force swap (alignTo size addr) = false

/-- A read at `addr` that takes the Data Abort (R62): an alignment fault, or an error of the memory. -/
def State.readAborts (s : State) (force : Bool) (size : Size) (addr : Word) : Prop :=
  s.unwatched ∧ (s.alignFault size addr = true ∨
    s.mapped (alignTo size addr) = true ∧ s.readFails force size (alignTo size addr) = true)

/-- A write at `addr` that takes the Data Abort (R63). -/
def State.writeAborts (s : State) (force swap : Bool) (size : Size) (addr : Word) : Prop :=
  s.unwatched ∧ (s.alignFault size addr = true ∨
    s.mapped (alignTo size addr) = true ∧ s.writeFails force swap (alignTo size addr) = true)

/-- A write to an AHB address that answers ERROR leaves the byte as it was (R71). -/
def State.lostWrite (s : State) (force : Bool) (a : Word) : Bool :=
  match s.routeData a with
  | .tcm _ => false
  | .ahb => s.ahb.error .write (s.userAccess force) a

/-- The byte lane that a store of this size at `addr` writes at a place, none where the place is not stored to. -/
def State.laneAt (s : State) (size : Size) (addr : Word) (p : Place) : Option Nat :=
  [0, 1, 2, 3].find? fun k =>
    (accessLanes s.cp15.b size (alignTo size addr)).getLsbD k && decide (s.placeOf (alignTo size addr) k = p)

/-- The byte of a place after MemWrite(addr, n, v), where it held `old` (R54, R63). -/
def State.storedByte (s : State) (force : Bool) (size : Size) (addr v : Word) (p : Place) (old : Byte) : Byte :=
  match s.laneAt size addr p with
  | none => old
  | some k =>
    if s.lostWrite force (alignTo size addr) then old
    else laneByte (putLanes s.cp15.b size (alignTo size addr) v) k

/-- The byte of a place after word stores, in order (R235). -/
def State.storedWords (s : State) (ws : List (Word × Word)) (p : Place) : Byte :=
  ws.foldl (fun old x => s.storedByte false .word x.1 x.2 p old) (s.byteAt p)

/-- Every register outside the general registers, the CPSR and the pc is as it was: saved status, CP15, CP14, debug, the
pins, the error inputs, the coprocessor interface, standby, the BL prefixes, the ETM interface, and what the other agents
are to do. (The output pins of `State.out` and the latch `State.chain` follow each cycle and are not among them.) -/
structure SameSystem (s t : State) : Prop where
  spsr : t.spsr = s.spsr
  cp15 : t.cp15 = s.cp15
  dcc : t.dcc = s.dcc
  dbg : t.dbg = s.dbg
  pins : t.pins = s.pins
  cp : t.cp = s.cp
  standby : t.standby = s.standby
  userXfer : t.userXfer = s.userXfer
  fiqServed : t.fiqServed = s.fiqServed
  irqServed : t.irqServed = s.irqServed
  prefixes : t.prefixes = s.prefixes
  etm : t.etm = s.etm
  between : t.between = s.between
  env : t.env = s.env
  itcmErr : t.itcm.err = s.itcm.err
  dtcmErr : t.dtcm.err = s.dtcm.err
  ahbErr : t.ahb.err = s.ahb.err

/-- Every byte of memory reads as it did. -/
def SameMemory (s t : State) : Prop := ∀ p : Place, t.byteAt p = s.byteAt p

/-- The next instruction follows in sequence (R24). -/
def WentOn (s t : State) : Prop := t.pc = s.nextPc ∧ t.fetch = s.fetch

/-! ## Registers after a write -/

/-- The general registers after a write of one (R22). -/
def State.withReg (s : State) (rd : Reg) (v : Word) : Vector Word 30 := s.regs.set (physIndex s.mode rd) v

/-- The general registers after a write of two, the second last. -/
def State.withRegs2 (s : State) (r0 : Reg) (v0 : Word) (r1 : Reg) (v1 : Word) : Vector Word 30 :=
  (s.regs.set (physIndex s.mode r0) v0).set (physIndex s.mode r1) v1

/-- The general registers after a load: the base if it is written back, then the destination. -/
def State.withBase (s : State) (rn : Reg) (newBase : Option Word) : Vector Word 30 :=
  match newBase with
  | none => s.regs
  | some b => s.withReg rn b

/-- One register written, everything else as it was, and the next instruction follows. -/
def State.wrote (s : State) (rd : Reg) (v : Word) : State := { s with regs := s.withReg rd v, pc := s.nextPc }

/-- Nothing but the status register written. -/
def State.flagged (s : State) (p : Word) : State := { s with cpsr := p, pc := s.nextPc }

/-- One register and the status register written. -/
def State.wroteFlags (s : State) (rd : Reg) (v p : Word) : State :=
  { s with regs := s.withReg rd v, cpsr := p, pc := s.nextPc }

/-- N and Z from a word, in the status register, if S is set (R188 (c)). -/
def nzIf (sf : Bool) (p v : Word) : Word := if sf then Psr.setNz p v.msb (decide (v = 0)) else p

/-- A register pair written with a doubleword, the low word first, and N and Z from it if S is set (R191). -/
def State.wroteLong (s : State) (sf : Bool) (rdHi rdLo : Reg) (v : BitVec 64) : State :=
  { s with
    regs := s.withRegs2 rdLo (BitVec.ofNat 32 v.toNat) rdHi (BitVec.ofNat 32 (v.toNat / 4294967296))
    cpsr := if sf then Psr.setNz s.cpsr v.msb (decide (v = 0)) else s.cpsr
    pc := s.nextPc }

/-! ## Arithmetic, from the spec once more -/

/-- x + y + c with its carry and overflow by signs: R176, R177; a subtraction is the sum with NOT (R178). -/
def sumRule (x y : Word) (c : Bool) : AluOut :=
  let r := BitVec.ofNat 32 (x.toNat + y.toNat + c.toNat)
  { result := r
    c := decide (4294967296 ≤ x.toNat + y.toNat + c.toNat)
    v := (x.getLsbD 31 == y.getLsbD 31) && (r.getLsbD 31 != x.getLsbD 31) }

/-- The sixteen operations with their C and V: R172 to R187. -/
def AluOp.rule (op : AluOp) (a b : Word) (shifterCarry : Bool) (p : Word) : AluOut :=
  match op with
  | .and => ⟨a &&& b, shifterCarry, Psr.v p⟩
  | .eor => ⟨a ^^^ b, shifterCarry, Psr.v p⟩
  | .sub => sumRule a (~~~b) true
  | .rsb => sumRule b (~~~a) true
  | .add => sumRule a b false
  | .adc => sumRule a b (Psr.c p)
  | .sbc => sumRule a (~~~b) (Psr.c p)
  | .rsc => sumRule b (~~~a) (Psr.c p)
  | .tst => ⟨a &&& b, shifterCarry, Psr.v p⟩
  | .teq => ⟨a ^^^ b, shifterCarry, Psr.v p⟩
  | .cmp => sumRule a (~~~b) true
  | .cmn => sumRule a b false
  | .orr => ⟨a ||| b, shifterCarry, Psr.v p⟩
  | .mov => ⟨b, shifterCarry, Psr.v p⟩
  | .bic => ⟨a &&& ~~~b, shifterCarry, Psr.v p⟩
  | .mvn => ⟨~~~b, shifterCarry, Psr.v p⟩

/-- The operation writes Rd (R171). -/
def AluOp.writes : AluOp → Bool
  | .and => true | .eor => true | .sub => true | .rsb => true | .add => true | .adc => true | .sbc => true
  | .rsc => true | .tst => false | .teq => false | .cmp => false | .cmn => false | .orr => true | .mov => true
  | .bic => true | .mvn => true

/-- N, Z, C, V of a result, in the status word (R171). -/
def flagsOf (p : Word) (o : AluOut) : Word := Psr.setNzcv p o.result.msb (decide (o.result = 0)) o.c o.v

/-- The instruction of an operation with an immediate operand; MOV and MVN have no first operand, the tests no
destination, and those fields are zero. -/
def AluOp.immForm (op : AluOp) (c : Cond) (sf : Bool) (rn rd : Reg) (rot : BitVec 4) (imm : BitVec 8) : Instr :=
  match op with
  | .and => .andImm c sf rn rd rot imm
  | .eor => .eorImm c sf rn rd rot imm
  | .sub => .subImm c sf rn rd rot imm
  | .rsb => .rsbImm c sf rn rd rot imm
  | .add => .addImm c sf rn rd rot imm
  | .adc => .adcImm c sf rn rd rot imm
  | .sbc => .sbcImm c sf rn rd rot imm
  | .rsc => .rscImm c sf rn rd rot imm
  | .tst => .tstImm c rn 0 rot imm
  | .teq => .teqImm c rn 0 rot imm
  | .cmp => .cmpImm c rn 0 rot imm
  | .cmn => .cmnImm c rn 0 rot imm
  | .orr => .orrImm c sf rn rd rot imm
  | .mov => .movImm c sf 0 rd rot imm
  | .bic => .bicImm c sf rn rd rot imm
  | .mvn => .mvnImm c sf 0 rd rot imm

/-- The same with a register shifted by a constant. -/
def AluOp.shiftForm (op : AluOp) (c : Cond) (sf : Bool) (rn rd : Reg) (sh : BitVec 5) (k : ShiftKind) (rm : Reg) :
    Instr :=
  match op with
  | .and => .andShift c sf rn rd sh k rm
  | .eor => .eorShift c sf rn rd sh k rm
  | .sub => .subShift c sf rn rd sh k rm
  | .rsb => .rsbShift c sf rn rd sh k rm
  | .add => .addShift c sf rn rd sh k rm
  | .adc => .adcShift c sf rn rd sh k rm
  | .sbc => .sbcShift c sf rn rd sh k rm
  | .rsc => .rscShift c sf rn rd sh k rm
  | .tst => .tstShift c rn 0 sh k rm
  | .teq => .teqShift c rn 0 sh k rm
  | .cmp => .cmpShift c rn 0 sh k rm
  | .cmn => .cmnShift c rn 0 sh k rm
  | .orr => .orrShift c sf rn rd sh k rm
  | .mov => .movShift c sf 0 rd sh k rm
  | .bic => .bicShift c sf rn rd sh k rm
  | .mvn => .mvnShift c sf 0 rd sh k rm

/-- The same with a register shifted by a register. -/
def AluOp.regForm (op : AluOp) (c : Cond) (sf : Bool) (rn rd rs : Reg) (k : ShiftKind) (rm : Reg) : Instr :=
  match op with
  | .and => .andRegShift c sf rn rd rs k rm
  | .eor => .eorRegShift c sf rn rd rs k rm
  | .sub => .subRegShift c sf rn rd rs k rm
  | .rsb => .rsbRegShift c sf rn rd rs k rm
  | .add => .addRegShift c sf rn rd rs k rm
  | .adc => .adcRegShift c sf rn rd rs k rm
  | .sbc => .sbcRegShift c sf rn rd rs k rm
  | .rsc => .rscRegShift c sf rn rd rs k rm
  | .tst => .tstRegShift c rn 0 rs k rm
  | .teq => .teqRegShift c rn 0 rs k rm
  | .cmp => .cmpRegShift c rn 0 rs k rm
  | .cmn => .cmnRegShift c rn 0 rs k rm
  | .orr => .orrRegShift c sf rn rd rs k rm
  | .mov => .movRegShift c sf 0 rd rs k rm
  | .bic => .bicRegShift c sf rn rd rs k rm
  | .mvn => .mvnRegShift c sf 0 rd rs k rm

/-- What an operation that writes Rd leaves (R171): the register, the flags if S is set, and the pc. -/
def State.aluResult (s : State) (op : AluOp) (sf : Bool) (rn rd : Reg) (sh : ShifterOut) : State :=
  let o := op.rule (s.reg rn) sh.value sh.carry s.cpsr
  { s with regs := s.withReg rd o.result, cpsr := if sf then flagsOf s.cpsr o else s.cpsr, pc := s.nextPc }

/-- A half of a register as a signed integer (R195). -/
def halfInt (top : Bool) (v : Word) : Int :=
  if top then (BitVec.ofNat 16 (v.toNat / 65536)).toInt else (BitVec.ofNat 16 v.toNat).toInt

/-- The nearest integer that 32 bits hold (R15, SignedSat32). -/
def clamp32 (x : Int) : Int := max (-2147483648) (min 2147483647 x)

/-- An integer does not fit 32 bits (R15). -/
def exceeds32 (x : Int) : Bool := decide (x < -2147483648 ∨ 2147483647 < x)

/-! ## Status registers, from the spec once more -/

/-- The bits of a status register that a field mask selects (R212). -/
def fieldBits (mask : BitVec 4) : Word :=
  BitVec.ofNat 32 ((if mask.getLsbD 0 then 0x000000FF else 0) + (if mask.getLsbD 1 then 0x0000FF00 else 0) +
    (if mask.getLsbD 2 then 0x00FF0000 else 0) + (if mask.getLsbD 3 then 0xFF000000 else 0))

/-- A word with the bits of a mask replaced. -/
def replaceBits (old new mask : Word) : Word := (old &&& ~~~mask) ||| (new &&& mask)

/-! ## Loads and stores by instruction -/

/-- A load of one register: its condition, the access, the destination, the base, and the extension of the value. -/
structure LoadForm where
  cond : Cond
  force : Bool
  size : Size
  signed : Bool
  rd : Reg
  rn : Reg
  at_ : Addressed
deriving DecidableEq, Repr

/-- A store of one register. -/
structure StoreForm where
  cond : Cond
  force : Bool
  size : Size
  rd : Reg
  rn : Reg
  at_ : Addressed
deriving DecidableEq, Repr

/-- The registers of a form of addressing mode 2 or 3 are allowed (R215, R216, R224). -/
def transferLegal (wb : Bool) (rn rd : Reg) (rm : Option Reg) (noRd15 : Bool) : Bool :=
  decide (rm ≠ some 15) && !(wb && decide (rn = 15)) && !(noRd15 && decide (rd = 15)) &&
    !(wb && (decide (rd = rn) || decide (rm = some rn)))

/-- A load of addressing mode 2. -/
def State.load2 (s : State) (c : Cond) (force : Bool) (size : Size) (x : Indexing) (u : Bool) (rn rd : Reg)
    (rm : Option Reg) (offset : Word) : Option LoadForm :=
  if transferLegal (writesBack x) rn rd rm (decide (size ≠ .word) || force) then
    some ⟨c, force, size, false, rd, rn, addressMode2 x u (s.reg rn) offset⟩
  else none

/-- A load of addressing mode 3. -/
def State.load3 (s : State) (c : Cond) (size : Size) (signed p u w : Bool) (rn rd : Reg) (rm : Option Reg)
    (offset : Word) : Option LoadForm :=
  match addressMode3 p u w (s.reg rn) offset with
  | none => none
  | some m => if transferLegal m.newBase.isSome rn rd rm true then some ⟨c, false, size, signed, rd, rn, m⟩ else none

/-- A Thumb load. -/
def thumbLoadForm (size : Size) (signed : Bool) (rd : LoReg) (address : Word) : Option LoadForm :=
  some ⟨.al, false, size, signed, rd.reg, 0, ⟨address, none⟩⟩

/-- The loads of one register, with what each accesses (R220, R222, R224, R225, R227, R228, R279 to R294); none for the
other instructions and for forms that a rule excludes. The T forms exclude R15 (R224). -/
def State.loadOf (s : State) : Instr → Option LoadForm
  | .ldrtImm c u rn rd imm => s.load2 c true .word .postIndexed u rn rd none (imm.setWidth 32)
  | .ldrtReg c u rn rd sh k rm => s.load2 c true .word .postIndexed u rn rd (some rm) (indexOffset sh k rm s)
  | .ldrbtImm c u rn rd imm => s.load2 c true .byte .postIndexed u rn rd none (imm.setWidth 32)
  | .ldrbtReg c u rn rd sh k rm => s.load2 c true .byte .postIndexed u rn rd (some rm) (indexOffset sh k rm s)
  | .ldrImm c x u rn rd imm => s.load2 c false .word x u rn rd none (imm.setWidth 32)
  | .ldrReg c x u rn rd sh k rm => s.load2 c false .word x u rn rd (some rm) (indexOffset sh k rm s)
  | .ldrbImm c x u rn rd imm => s.load2 c false .byte x u rn rd none (imm.setWidth 32)
  | .ldrbReg c x u rn rd sh k rm => s.load2 c false .byte x u rn rd (some rm) (indexOffset sh k rm s)
  | .ldrhImm c p u w rn rd imm => s.load3 c .half false p u w rn rd none (imm.setWidth 32)
  | .ldrhReg c p u w rn rd sbz rm => if sbz = 0 then s.load3 c .half false p u w rn rd (some rm) (s.reg rm) else none
  | .ldrsbImm c p u w rn rd imm => s.load3 c .byte true p u w rn rd none (imm.setWidth 32)
  | .ldrsbReg c p u w rn rd sbz rm => if sbz = 0 then s.load3 c .byte true p u w rn rd (some rm) (s.reg rm) else none
  | .ldrshImm c p u w rn rd imm => s.load3 c .half true p u w rn rd none (imm.setWidth 32)
  | .ldrshReg c p u w rn rd sbz rm => if sbz = 0 then s.load3 c .half true p u w rn rd (some rm) (s.reg rm) else none
  | .tLdrLit rd imm => thumbLoadForm .word false rd (s.thumbPcBase + scaled imm 4)
  | .tLdrReg rm rn rd => thumbLoadForm .word false rd (regAddress rm rn s)
  | .tLdrhReg rm rn rd => thumbLoadForm .half false rd (regAddress rm rn s)
  | .tLdrbReg rm rn rd => thumbLoadForm .byte false rd (regAddress rm rn s)
  | .tLdrsbReg rm rn rd => thumbLoadForm .byte true rd (regAddress rm rn s)
  | .tLdrshReg rm rn rd => thumbLoadForm .half true rd (regAddress rm rn s)
  | .tLdrImm imm rn rd => thumbLoadForm .word false rd (immAddress imm 4 rn s)
  | .tLdrbImm imm rn rd => thumbLoadForm .byte false rd (immAddress imm 1 rn s)
  | .tLdrhImm imm rn rd => thumbLoadForm .half false rd (immAddress imm 2 rn s)
  | .tLdrSp rd imm => thumbLoadForm .word false rd (spAddress imm s)
  | _ => none

/-- A store of addressing mode 2. -/
def State.store2 (s : State) (c : Cond) (force : Bool) (size : Size) (x : Indexing) (u : Bool) (rn rd : Reg)
    (rm : Option Reg) (offset : Word) : Option StoreForm :=
  if transferLegal (writesBack x) rn rd rm (decide (size ≠ .word) || force) then
    some ⟨c, force, size, rd, rn, addressMode2 x u (s.reg rn) offset⟩
  else none

/-- A store of addressing mode 3. -/
def State.store3 (s : State) (c : Cond) (p u w : Bool) (rn rd : Reg) (rm : Option Reg) (offset : Word) :
    Option StoreForm :=
  match addressMode3 p u w (s.reg rn) offset with
  | none => none
  | some m => if transferLegal m.newBase.isSome rn rd rm true then some ⟨c, false, .half, rd, rn, m⟩ else none

/-- A Thumb store. -/
def thumbStoreForm (size : Size) (rd : LoReg) (address : Word) : Option StoreForm :=
  some ⟨.al, false, size, rd.reg, 0, ⟨address, none⟩⟩

/-- The stores of one register (R221, R223, R224, R226, R281 to R295). -/
def State.storeOf (s : State) : Instr → Option StoreForm
  | .strtImm c u rn rd imm => s.store2 c true .word .postIndexed u rn rd none (imm.setWidth 32)
  | .strtReg c u rn rd sh k rm => s.store2 c true .word .postIndexed u rn rd (some rm) (indexOffset sh k rm s)
  | .strbtImm c u rn rd imm => s.store2 c true .byte .postIndexed u rn rd none (imm.setWidth 32)
  | .strbtReg c u rn rd sh k rm => s.store2 c true .byte .postIndexed u rn rd (some rm) (indexOffset sh k rm s)
  | .strImm c x u rn rd imm => s.store2 c false .word x u rn rd none (imm.setWidth 32)
  | .strReg c x u rn rd sh k rm => s.store2 c false .word x u rn rd (some rm) (indexOffset sh k rm s)
  | .strbImm c x u rn rd imm => s.store2 c false .byte x u rn rd none (imm.setWidth 32)
  | .strbReg c x u rn rd sh k rm => s.store2 c false .byte x u rn rd (some rm) (indexOffset sh k rm s)
  | .strhImm c p u w rn rd imm => s.store3 c p u w rn rd none (imm.setWidth 32)
  | .strhReg c p u w rn rd sbz rm => if sbz = 0 then s.store3 c p u w rn rd (some rm) (s.reg rm) else none
  | .tStrReg rm rn rd => thumbStoreForm .word rd (regAddress rm rn s)
  | .tStrhReg rm rn rd => thumbStoreForm .half rd (regAddress rm rn s)
  | .tStrbReg rm rn rd => thumbStoreForm .byte rd (regAddress rm rn s)
  | .tStrImm imm rn rd => thumbStoreForm .word rd (immAddress imm 4 rn s)
  | .tStrbImm imm rn rd => thumbStoreForm .byte rd (immAddress imm 1 rn s)
  | .tStrhImm imm rn rd => thumbStoreForm .half rd (immAddress imm 2 rn s)
  | .tStrSp rd imm => thumbStoreForm .word rd (spAddress imm s)
  | _ => none

/-- The instruction is an ARM one (its word may be loaded unaligned with A = 0, R57). -/
def armTransfer : Instr → Bool
  | .ldrtImm _ _ _ _ _ => true
  | .ldrtReg _ _ _ _ _ _ _ => true
  | .ldrImm _ _ _ _ _ _ => true
  | .ldrReg _ _ _ _ _ _ _ _ => true
  | .strtImm _ _ _ _ _ => true
  | .strtReg _ _ _ _ _ _ _ => true
  | .strImm _ _ _ _ _ _ => true
  | .strReg _ _ _ _ _ _ _ _ => true
  | _ => false

/-- The value a load puts into its register: a word rotated by its address (R220), the others extended (R218). -/
def LoadForm.value (x : LoadForm) (v : Word) : Word :=
  match x.size, x.signed with
  | .word, _ => v.rotateRight (8 * (x.at_.address.toNat % 4))
  | .half, false => v
  | .half, true => (v.setWidth 16).signExtend 32
  | .byte, false => v
  | .byte, true => (v.setWidth 8).signExtend 32

/-- A Data Abort of the instruction at `pc` has been taken (R312, R313, R318), and CPLATECANCEL shows it (R152): the link
value, the saved status, the CPSR, the vector; no other register outside the general registers has changed. -/
structure AbortTaken (s t : State) : Prop where
  link : t.regs[physIndex .abt 14] = s.pc + 8
  spsr : t.spsr = s.spsr.set 3 s.cpsr
  cpsr : t.cpsr = Exc.newCpsr .dataAbort s.cpsr
  pc : t.pc = (if s.cp15.v then 0xFFFF0010 else 0x10)
  lateCancel : t.out.cpLateCancel = true
  system : SameSystem s { t with spsr := s.spsr }

/-- A Data Abort of the instruction at `pc` that has changed no other register. -/
structure AbortedClean (s t : State) : Prop extends AbortTaken s t where
  regs : t.regs = s.regs.set (physIndex .abt 14) (s.pc + 8)

/-- The state right after a Data Abort of the instruction at `pc`: nothing but R14 and the SPSR of Abort mode, the CPSR
and the pc has changed. -/
structure AbortedFrom (s t : State) : Prop extends AbortedClean s t where
  memory : SameMemory s t

/-! ## Load and store multiple by instruction -/

/-- A load or store multiple: its condition, the bank of the listed registers, the base register, the registers in
ascending order, the first address, and the base written back. -/
structure MultipleForm where
  cond : Cond
  bank : Mode
  rn : Reg
  regs : List Reg
  start : Word
  newBase : Option Word
  user : Bool
deriving DecidableEq, Repr

/-- Addressing mode 4 (R234), the list given as register numbers. -/
def State.mode4 (s : State) (c : Cond) (bank : Mode) (p u w : Bool) (rn : Reg) (regs : List Reg) (user : Bool) :
    Option MultipleForm :=
  let n := BitVec.ofNat 32 (4 * regs.length)
  let b := s.reg rn
  if regs ≠ [] ∧ rn ≠ 15 then
    some ⟨c, bank, rn, regs,
      match p, u with | false, true => b | true, true => b + 4 | false, false => b - n + 4 | true, false => b - n,
      if w then some (if u then b + n else b - n) else none, user⟩
  else none

/-- The loads of several registers other than the exception return (R237, R238, R297, R298); none for the other
instructions and for forms that a rule excludes. -/
def State.multipleLoad (s : State) : Instr → Option MultipleForm
  | .ldm c p u w rn list =>
    if w ∧ rn ∈ listRegs list then none else s.mode4 c s.mode p u w rn (listRegs list) false
  | .ldmUser c p u w rn list =>
    if w ∨ s.mode = .usr ∨ s.mode = .sys then none else s.mode4 c .usr p u false rn (listRegs list) true
  | .tPop r list => s.mode4 .al s.mode false true true 13 (listRegs list ++ if r then [15] else []) false
  | .tLdmia rn list =>
    s.mode4 .al s.mode false true (decide (rn.reg ∉ listRegs list)) rn.reg (listRegs list) false
  | _ => none

/-- The stores of several registers (R240, R241, R296, R299). -/
def State.multipleStore (s : State) : Instr → Option MultipleForm
  | .stm c p u w rn list => s.mode4 c s.mode p u w rn (listRegs list) false
  | .stmUser c p u w rn list =>
    if w ∨ s.mode = .usr ∨ s.mode = .sys then none else s.mode4 c .usr p u false rn (listRegs list) true
  | .tPush r list => s.mode4 .al s.mode true false true 13 (listRegs list ++ if r then [14] else []) false
  | .tStmia rn list => s.mode4 .al s.mode false true true rn.reg (listRegs list) false
  | _ => none

/-- The word addresses of a form, ascending (R235). -/
def MultipleForm.addresses (x : MultipleForm) : List Word := wordAddresses x.start x.regs.length

/-- The general registers after a load multiple: each listed register other than R15 has its word, then the base is
written back. -/
def State.loadedList (s : State) (x : MultipleForm) : Vector Word 30 :=
  let v := (x.regs.zip x.addresses).foldl
    (fun v y => if y.1 = 15 then v else v.set (physIndex x.bank y.1) (s.loaded .word y.2)) s.regs
  match x.newBase with
  | none => v
  | some b => v.set (physIndex s.mode x.rn) b

/-- The word that a store multiple stores for a register (R240, R241): a base written back that is not the lowest of the
list is stored as an undefined value. -/
def State.listValue (s : State) (x : MultipleForm) (r : Reg) : Word :=
  if x.newBase.isSome = true ∧ r = x.rn ∧ x.regs.head? ≠ some r then Config.freeWord s.freeCtr
  else if r = 15 then s.storeReg 15
  else s.bankReg x.bank r

/-! ## Coprocessor instructions -/

/-- A coprocessor instruction as Execute begins with it (R148): it has moved the words `moved`, and `r` is the state in which
the coprocessor has received it. Either it is new, or it has been kept waiting. -/
def State.offers (s : State) (n : Reg) (i : Instr) (moved : List Word) (r : State) : Prop :=
  let word := Code.word (encode i)
  (s.cp.waiting = none ∧ moved = [] ∧ r = s.sendCp n (.instr word s.privileged)) ∨
    (s.cp.waiting = some { instr := word, moved := moved } ∧ r = s)

/-- The handshake is over: these cycles are still to come, and no instruction waits. -/
def State.answered (r : State) (n : Reg) (rs : List CpReply) : State := (r.setReplies n rs).setWaiting none

/-- The words that a coprocessor receives on CPDOUT, in order. -/
def State.sendWords (r : State) (n : Reg) (ws : List Word) : State := ws.foldl (fun t w => t.sendCp n (.data w)) r

/-! ## Instruction boundaries -/

/-- Nothing but the next instruction, or the one that a coprocessor keeps waiting, can happen: no event of another agent is
due, and no debug request, standby, ETM stall or interrupt comes before it (R132, R148, R323, R342). -/
def State.quiet (s : State) : Prop :=
  s.env = [] ∧ s.dbg.inDebug = false ∧ s.debugRequest = false ∧ s.etmStall = false ∧ s.takesFiq = false ∧
    s.takesIrq = false ∧ (s.standby = true → s.wakes = true)

/-- The start of an instruction: the clock of the step has run, standby is over. -/
def State.atFetch (s : State) : State := { s.begun with standby := false }

/-! ## User mode -/

/-- The general registers that User mode has no name for: R8 to R12 of FIQ mode, R13 and R14 of the exception modes
(R22). -/
def privilegedReg (k : Fin 30) : Bool := (decide (13 ≤ k.val) && decide (k.val ≤ 17)) || decide (20 ≤ k.val)

/-! ## Output pins (spec/80_signals_and_ac_timing.md) -/

/-- BIGENDOUT (R33, R365). -/
def State.bigendOut (s : State) : Bool := s.cp15.b

/-- COMMRX (R42). -/
def State.commRx (s : State) : Bool := s.dcc.r

/-- COMMTX (R42). -/
def State.commTx (s : State) : Bool := !s.dcc.w

/-- DBGACK (R331, R333). -/
def State.dbgAck (s : State) : Bool := s.pins.dbgen && s.dbg.inDebug

/-- nCPTRANS: LOW in User mode (R23). -/
def State.nCpTrans (s : State) : Bool := s.privileged

/-- CPTBIT (R98). -/
def State.cpTBit (s : State) : Bool := s.thumb

/-- DBGRQI (R45, R364). It shows the request with DBGEN LOW too, though nothing then reaches the core (R331; DESIGN CHOICE,
entry 47). -/
def State.dbgRqi (s : State) : Bool := s.pins.edbgrq || s.dbg.request

end Sys2Proof.Machine
end

