-- ==== Sys2Proof/Certificates/Slice0/Obligations.lean ====
section
/-! DEFINITION. The statements for the provers: one definition each, named after what it states. They follow the numbered
rules of spec/. Where a statement rests on a choice of the model, its docstring says so. -/

open Sys2Proof Sys2Proof.Machine

/-! ## Data processing -/

/-- R171 to R187, Rd other than R15: the result goes to Rd, the flags change with S = 1 only, and nothing else changes.
Every operand form of the twelve operations that write Rd. -/
def Obligations.DataProcessingResult : Prop :=
  ∀ (op : AluOp) (c : Cond) (sf : Bool) (rn rd rs rm : Reg) (rot : BitVec 4) (imm : BitVec 8) (sh : BitVec 5)
    (k : ShiftKind) (s : State),
    op.writes = true → Cond.holds c s.cpsr = true → rd ≠ 15 →
      exec (op.immForm c sf rn rd rot imm) s = .next (s.aluResult op sf rn rd (immOperand rot imm s)) ∧
      exec (op.shiftForm c sf rn rd sh k rm) s = .next (s.aluResult op sf rn rd (immShiftOperand sh k rm s)) ∧
      (rn ≠ 15 → rs ≠ 15 → rm ≠ 15 →
        exec (op.regForm c sf rn rd rs k rm) s = .next (s.aluResult op sf rn rd (regShiftOperand rs k rm s)))

/-- R180 to R183: TST, TEQ, CMP and CMN change the flags and nothing else. Every operand form. -/
def Obligations.TestsWriteFlagsOnly : Prop :=
  ∀ (op : AluOp) (c : Cond) (sf : Bool) (rn rd rs rm : Reg) (rot : BitVec 4) (imm : BitVec 8) (sh : BitVec 5)
    (k : ShiftKind) (s : State),
    op.writes = false → Cond.holds c s.cpsr = true →
      let after (v : ShifterOut) : State := s.flagged (flagsOf s.cpsr (op.rule (s.reg rn) v.value v.carry s.cpsr))
      exec (op.immForm c sf rn rd rot imm) s = .next (after (immOperand rot imm s)) ∧
      exec (op.shiftForm c sf rn rd sh k rm) s = .next (after (immShiftOperand sh k rm s)) ∧
      (rn ≠ 15 → rs ≠ 15 → rm ≠ 15 →
        exec (op.regForm c sf rn rd rs k rm) s = .next (after (regShiftOperand rs k rm s)))

/-- R171, R24, Rd = R15: with S = 0 a branch to a word-aligned result, which is UNPREDICTABLE otherwise; with S = 1 an
exception return, which is UNPREDICTABLE without an SPSR or with an illegal mode in it. The target of a return has its low
bits cleared as R325 says; R24 and R171 would ask for bits [1:0] = b00, and the model's reading is DEDUCED (entry 13). That a
sum is taken modulo 2^32, also past an end of the address space, is DESIGN CHOICE (entry 16). -/
def Obligations.DataProcessingToPc : Prop :=
  ∀ (op : AluOp) (c : Cond) (rn rm : Reg) (rot : BitVec 4) (imm : BitVec 8) (sh : BitVec 5) (k : ShiftKind) (s : State),
    op.writes = true → Cond.holds c s.cpsr = true →
      ∀ form ∈ [(fun sf => op.immForm c sf rn 15 rot imm, immOperand rot imm s),
          (fun sf => op.shiftForm c sf rn 15 sh k rm, immShiftOperand sh k rm s)],
        let v := (op.rule (s.reg rn) form.2.value form.2.carry s.cpsr).result
        exec (form.1 false) s = (if v.toNat % 4 = 0 then .next (s.jump v) else .refused .branchTarget) ∧
        exec (form.1 true) s =
          match s.spsr? with
          | none => .refused .noSpsr
          | some p =>
            if (Mode.ofBits (Psr.m p)).isSome then
              .next ({ s with cpsr := p }.jump (if Psr.t p then v &&& 0xFFFFFFFE else v &&& 0xFFFFFFFC))
            else .refused .illegalMode

/-- R170: every bit of the shifter operand and its carry, for an immediate, for a register shifted by a constant, where
LSR #0 and ASR #0 stand for 32 and ROR #0 for RRX, and for a register shifted by the bottom byte of a register. -/
def Obligations.ShifterOperandBits : Prop :=
  ∀ (rot : BitVec 4) (imm : BitVec 8) (sh : BitVec 5) (k : ShiftKind) (rs rm : Reg) (s : State) (j : Nat), j < 32 →
    let x := s.reg rm
    let n := sh.toNat
    let m := if n = 0 then 32 else n
    let r := (s.reg rs).toNat % 256
    let c := Psr.c s.cpsr
    let i := immOperand rot imm s
    let v := immShiftOperand sh k rm s
    let w := regShiftOperand rs k rm s
    i.value.getLsbD j = (imm.setWidth 32).getLsbD ((j + 2 * rot.toNat) % 32) ∧
    i.carry = (if rot = 0 then c else i.value.getLsbD 31) ∧
    match k with
    | .lsl => v.value.getLsbD j = (decide (n ≤ j) && x.getLsbD (j - n)) ∧
        v.carry = (if n = 0 then c else x.getLsbD (32 - n)) ∧
        w.value.getLsbD j = (decide (r ≤ j) && x.getLsbD (j - r)) ∧
        w.carry = if r = 0 then c else decide (r ≤ 32) && x.getLsbD (32 - r)
    | .lsr => v.value.getLsbD j = x.getLsbD (j + m) ∧ v.carry = x.getLsbD (m - 1) ∧
        w.value.getLsbD j = x.getLsbD (j + r) ∧ w.carry = if r = 0 then c else x.getLsbD (r - 1)
    | .asr => v.value.getLsbD j = x.getLsbD (min 31 (j + m)) ∧ v.carry = x.getLsbD (m - 1) ∧
        w.value.getLsbD j = x.getLsbD (min 31 (j + r)) ∧
        w.carry = if r = 0 then c else x.getLsbD (min 31 (r - 1))
    | .ror =>
      (if n = 0 then (v.value.getLsbD j = if j = 31 then c else x.getLsbD (j + 1)) ∧ v.carry = x.getLsbD 0
        else v.value.getLsbD j = x.getLsbD ((j + n) % 32) ∧ v.carry = x.getLsbD (n - 1)) ∧
      w.value.getLsbD j = x.getLsbD ((j + r) % 32) ∧ w.carry = if r = 0 then c else x.getLsbD ((r + 31) % 32)

/-- R170, R188 (a), (e), R199: what is UNPREDICTABLE in the register operands stops: R15 in a register shift or a
multiply, and the clashes of the multiplies. -/
def Obligations.RegisterRestrictionsStop : Prop :=
  ∀ (op : AluOp) (c : Cond) (sf x y : Bool) (rn rd rs rm : Reg) (k : ShiftKind) (s : State), Cond.holds c s.cpsr = true →
    (rs = 15 ∨ rm = 15 ∨ op.writes = true ∧ rd = 15 ∨ (op ≠ .mov ∧ op ≠ .mvn) ∧ rn = 15 →
      exec (op.regForm c sf rn rd rs k rm) s = .refused .r15Operand) ∧
    (rd = 15 ∨ rs = 15 ∨ rm = 15 →
      exec (.mul c sf rd 0 rs rm) s = .refused .r15Operand ∧
      exec (.smulxy c x y rd 0 rs rm) s = .refused .r15Operand ∧
      exec (.smulwy c y rd 0 rs rm) s = .refused .r15Operand) ∧
    (rd = 15 ∨ rn = 15 ∨ rs = 15 ∨ rm = 15 →
      exec (.mla c sf rd rn rs rm) s = .refused .r15Operand ∧
      exec (.umull c sf rd rn rs rm) s = .refused .r15Operand ∧
      exec (.umlal c sf rd rn rs rm) s = .refused .r15Operand ∧
      exec (.smull c sf rd rn rs rm) s = .refused .r15Operand ∧
      exec (.smlal c sf rd rn rs rm) s = .refused .r15Operand ∧
      exec (.smlaxy c x y rd rn rs rm) s = .refused .r15Operand ∧
      exec (.smlawy c y rd rn rs rm) s = .refused .r15Operand ∧
      exec (.smlalxy c x y rd rn rs rm) s = .refused .r15Operand) ∧
    (rn = 15 ∨ rd = 15 ∨ rm = 15 →
      exec (.qadd c rn rd 0 rm) s = .refused .r15Operand ∧ exec (.qsub c rn rd 0 rm) s = .refused .r15Operand ∧
      exec (.qdadd c rn rd 0 rm) s = .refused .r15Operand ∧ exec (.qdsub c rn rd 0 rm) s = .refused .r15Operand) ∧
    (rd = 15 ∨ rm = 15 → exec (.clz c 15 rd 15 rm) s = .refused .r15Operand) ∧
    (rd ≠ 15 → rs ≠ 15 → rm ≠ 15 → rn ≠ 15 →
      (rd = rm → exec (.mul c sf rd 0 rs rm) s = .refused .registerClash ∧
        exec (.mla c sf rd rn rs rm) s = .refused .registerClash) ∧
      (rd = rn ∨ rd = rm ∨ rn = rm →
        exec (.umull c sf rd rn rs rm) s = .refused .registerClash ∧
        exec (.umlal c sf rd rn rs rm) s = .refused .registerClash ∧
        exec (.smull c sf rd rn rs rm) s = .refused .registerClash ∧
        exec (.smlal c sf rd rn rs rm) s = .refused .registerClash) ∧
      (rd = rn → exec (.smlalxy c x y rd rn rs rm) s = .refused .registerClash))

/-! ## Multiplies, DSP arithmetic, CLZ -/

/-- R189, R190: MUL and MLA, with N and Z if S is set. -/
def Obligations.MultiplyResult : Prop :=
  ∀ (c : Cond) (sf : Bool) (rd rn rs rm : Reg) (s : State),
    Cond.holds c s.cpsr = true → rd ≠ 15 → rs ≠ 15 → rm ≠ 15 → rd ≠ rm →
      let p := BitVec.ofNat 32 ((s.reg rm).toNat * (s.reg rs).toNat)
      let q := BitVec.ofNat 32 ((s.reg rm).toNat * (s.reg rs).toNat + (s.reg rn).toNat)
      exec (.mul c sf rd 0 rs rm) s = .next (s.wroteFlags rd p (nzIf sf s.cpsr p)) ∧
      (rn ≠ 15 → exec (.mla c sf rd rn rs rm) s = .next (s.wroteFlags rd q (nzIf sf s.cpsr q)))

/-- R191 to R194, R199: the long multiplies, from the exact products. -/
def Obligations.LongMultiplyResult : Prop :=
  ∀ (c : Cond) (sf x y : Bool) (rdHi rdLo rs rm : Reg) (s : State),
    Cond.holds c s.cpsr = true → rdHi ≠ 15 → rdLo ≠ 15 → rs ≠ 15 → rm ≠ 15 → rdHi ≠ rdLo →
      let a := s.reg rm
      let b := s.reg rs
      let acc : Nat := (s.reg rdHi).toNat * 4294967296 + (s.reg rdLo).toNat
      (rdHi ≠ rm → rdLo ≠ rm →
        exec (.umull c sf rdHi rdLo rs rm) s = .next (s.wroteLong sf rdHi rdLo (BitVec.ofNat 64 (a.toNat * b.toNat))) ∧
        exec (.umlal c sf rdHi rdLo rs rm) s =
          .next (s.wroteLong sf rdHi rdLo (BitVec.ofNat 64 (a.toNat * b.toNat + acc))) ∧
        exec (.smull c sf rdHi rdLo rs rm) s = .next (s.wroteLong sf rdHi rdLo (BitVec.ofInt 64 (a.toInt * b.toInt))) ∧
        exec (.smlal c sf rdHi rdLo rs rm) s =
          .next (s.wroteLong sf rdHi rdLo (BitVec.ofInt 64 (a.toInt * b.toInt + acc)))) ∧
      exec (.smlalxy c x y rdHi rdLo rs rm) s =
        .next (s.wroteLong false rdHi rdLo (BitVec.ofInt 64 (halfInt x a * halfInt y b + acc)))

/-- R195 to R198: the 16-bit and 32 by 16 multiplies; the accumulating ones wrap, and set Q where the exact sum does not
fit 32 bits. -/
def Obligations.HalfwordMultiplyResult : Prop :=
  ∀ (c : Cond) (x y : Bool) (rd rn rs rm : Reg) (s : State),
    Cond.holds c s.cpsr = true → rd ≠ 15 → rs ≠ 15 → rm ≠ 15 →
      let p : Int := halfInt x (s.reg rm) * halfInt y (s.reg rs)
      let w : Int := (s.reg rm).toInt * halfInt y (s.reg rs) / 65536
      let sum (v : Int) : Int := v + (s.reg rn).toInt
      exec (.smulxy c x y rd 0 rs rm) s = .next (s.wrote rd (BitVec.ofInt 32 p)) ∧
      exec (.smulwy c y rd 0 rs rm) s = .next (s.wrote rd (BitVec.ofInt 32 w)) ∧
      (rn ≠ 15 →
        exec (.smlaxy c x y rd rn rs rm) s =
          .next (s.wroteFlags rd (BitVec.ofInt 32 (sum p)) (Psr.orQ s.cpsr (exceeds32 (sum p)))) ∧
        exec (.smlawy c y rd rn rs rm) s =
          .next (s.wroteFlags rd (BitVec.ofInt 32 (sum w)) (Psr.orQ s.cpsr (exceeds32 (sum w)))))

/-- R200 to R203: saturating arithmetic; Q is set where any step saturated and is never cleared. -/
def Obligations.SaturatingResult : Prop :=
  ∀ (c : Cond) (rn rd rm : Reg) (s : State), Cond.holds c s.cpsr = true → rn ≠ 15 → rd ≠ 15 → rm ≠ 15 →
    let a : Int := (s.reg rm).toInt
    let b : Int := (s.reg rn).toInt
    let d : Int := clamp32 (2 * b)
    let after (x : Int) (q : Bool) : State :=
      s.wroteFlags rd (BitVec.ofInt 32 (clamp32 x)) (Psr.orQ s.cpsr (q || exceeds32 x))
    exec (.qadd c rn rd 0 rm) s = .next (after (a + b) false) ∧
    exec (.qsub c rn rd 0 rm) s = .next (after (a - b) false) ∧
    exec (.qdadd c rn rd 0 rm) s = .next (after (a + d) (exceeds32 (2 * b))) ∧
    exec (.qdsub c rn rd 0 rm) s = .next (after (a - d) (exceeds32 (2 * b)))

/-- R204: CLZ counts the zero bits above the highest one bit, 32 for zero; no flag changes. -/
def Obligations.CountLeadingZerosResult : Prop :=
  ∀ (c : Cond) (rd rm : Reg) (s : State), Cond.holds c s.cpsr = true → rd ≠ 15 → rm ≠ 15 →
    exec (.clz c 15 rd 15 rm) s =
      .next (s.wrote rd (if s.reg rm = 0 then 32 else BitVec.ofNat 32 (31 - (s.reg rm).toNat.log2)))

/-! ## Conditions and reserved fields -/

/-- R100, R233: the fifteen conditions by number, 1111 being none; an instruction whose condition fails only advances the
pc (every ARM instruction with a condition field, and Thumb B), and so does PLD. That a form which a rule calls
UNPREDICTABLE is skipped too where its condition fails is DEDUCED (entry 12), and so is PLD with Rm = R15 as a NOP (entry
15). -/
def Obligations.ConditionsAndSkips : Prop :=
  (∀ p : Word,
    let n := p.getLsbD 31
    let z := p.getLsbD 30
    let c := p.getLsbD 29
    let v := p.getLsbD 28
    (List.map (fun b => (Cond.ofBits (BitVec.ofNat 4 b)).map (Cond.holds · p)) (List.range 16)) =
      [some z, some !z, some c, some !c, some n, some !n, some v, some !v, some (c && !z), some (!c || z),
        some (n == v), some (n != v), some (!z && (n == v)), some (z || (n != v)), some true, none]) ∧
  (∀ (i : Instr) (c : Cond) (s : State),
    condOf i = some c → Cond.holds c s.cpsr = false → exec i s = .next { s with pc := s.nextPc }) ∧
  (∀ (u : Bool) (rn rm : Reg) (imm : BitVec 12) (sh : BitVec 5) (k : ShiftKind) (s : State),
    exec (.pldImm u rn imm) s = .next { s with pc := s.nextPc } ∧
    exec (.pldReg u rn sh k rm) s = .next { s with pc := s.nextPc })

/-- U-G1: a Should Be Zero or Should Be One field with another value is UNPREDICTABLE, and the machine stops, whatever the
other operands. -/
def Obligations.ReservedFieldsStop : Prop :=
  ∀ (c : Cond) (sf x y r : Bool) (f f' f'' rd rn rs rm mask rot : Reg) (imm : BitVec 8) (sh : BitVec 5) (k : ShiftKind)
    (p u w : Bool) (low : BitVec 3) (s : State), Cond.holds c s.cpsr = true →
    (f ≠ 0 → ∀ i ∈ [Instr.movShift c sf f rd sh k rm, .movRegShift c sf f rd rs k rm, .movImm c sf f rd rot imm,
        .mvnShift c sf f rd sh k rm, .mvnRegShift c sf f rd rs k rm, .mvnImm c sf f rd rot imm,
        .tstShift c rn f sh k rm, .tstRegShift c rn f rs k rm, .tstImm c rn f rot imm,
        .teqShift c rn f sh k rm, .teqRegShift c rn f rs k rm, .teqImm c rn f rot imm,
        .cmpShift c rn f sh k rm, .cmpRegShift c rn f rs k rm, .cmpImm c rn f rot imm,
        .cmnShift c rn f sh k rm, .cmnRegShift c rn f rs k rm, .cmnImm c rn f rot imm,
        .mul c sf rd f rs rm, .smulxy c x y rd f rs rm, .smulwy c y rd f rs rm,
        .qadd c rn rd f rm, .qsub c rn rd f rm, .qdadd c rn rd f rm, .qdsub c rn rd f rm,
        .swp c rn rd f rm, .swpb c rn rd f rm, .strhReg c p u w rn rd f rm, .ldrhReg c p u w rn rd f rm,
        .ldrsbReg c p u w rn rd f rm, .ldrshReg c p u w rn rd f rm, .ldrdReg c p u w rn rd f rm,
        .strdReg c p u w rn rd f rm], exec i s = .refused .reservedField) ∧
    (f ≠ 15 ∨ f' ≠ 15 → exec (.clz c f rd f' rm) s = .refused .reservedField) ∧
    (f ≠ 15 ∨ f' ≠ 15 ∨ f'' ≠ 15 →
      exec (.bx c f f' f'' rm) s = .refused .reservedField ∧ exec (.blxReg c f f' f'' rm) s = .refused .reservedField) ∧
    (f ≠ 15 ∨ f' ≠ 0 ∨ f'' ≠ 0 → exec (.mrs c r f rd f' f'') s = .refused .reservedField) ∧
    (f ≠ 15 ∨ f' ≠ 0 → exec (.msrReg c r mask f f' rm) s = .refused .reservedField) ∧
    (f ≠ 15 → exec (.msrImm c r mask f rot imm) s = .refused .reservedField) ∧
    (low ≠ 0 → exec (.tBx rm low) s = .refused .reservedField ∧ exec (.tBlxReg rm low) s = .refused .reservedField)

/-! ## Branches -/

/-- R206 to R208: the targets of B, BL and BLX (1) and the link value; a target past an end of the address space is
UNPREDICTABLE (R205 (e)). -/
def Obligations.BranchResult : Prop :=
  ∀ (c : Cond) (h : Bool) (imm : BitVec 24) (s : State),
    let linked : State := { s with regs := s.withReg 14 s.nextPc }
    let t : Int := s.pc.toNat + 8 + 4 * imm.toInt
    let u : Int := t + 2 * h.toNat
    (Cond.holds c s.cpsr = true → 0 ≤ t → t < 4294967296 →
      exec (.b c imm) s = .next (s.jump (BitVec.ofInt 32 t)) ∧
      exec (.bl c imm) s = .next (linked.jump (BitVec.ofInt 32 t))) ∧
    (Cond.holds c s.cpsr = true → (t < 0 ∨ 4294967296 ≤ t) →
      exec (.b c imm) s = .refused .addressWrap ∧ exec (.bl c imm) s = .refused .addressWrap) ∧
    (0 ≤ u → u < 4294967296 →
      exec (.blxImm h imm) s =
        .next ({ linked with cpsr := Psr.setT s.cpsr true }.jump (BitVec.ofInt 32 u))) ∧
    ((u < 0 ∨ 4294967296 ≤ u) → exec (.blxImm h imm) s = .refused .addressWrap)

/-- R209, R210, R305, R306: BX and BLX of a register, in both instruction sets: bit 0 of the register selects the state,
b10 in its low bits is UNPREDICTABLE, and BLX leaves the link value after it has read its register. BX of R15 where the read
of R15 wraps past the top of the address space is UNPREDICTABLE (R205 (e)). -/
def Obligations.ExchangeResult : Prop :=
  ∀ (c : Cond) (rm : Reg) (s : State), Cond.holds c s.cpsr = true →
    let ahead : Nat := s.pc.toNat + (if s.thumb then 4 else 8)
    (4294967296 ≤ ahead → ∀ i ∈ [Instr.bx c 15 15 15 15, .tBx 15 0], exec i s = .refused .addressWrap) ∧
    ((rm = 15 → ahead < 4294967296) → ∀ form ∈ [(Instr.bx c 15 15 15 rm, s.regs), (.tBx rm 0, s.regs)] ++
        (if rm = 15 then [] else
          [(.blxReg c 15 15 15 rm, s.withReg 14 s.nextPc), (.tBlxReg rm 0, s.withReg 14 (s.nextPc ||| 1))]),
      let v := s.reg rm
      (v.toNat % 2 = 1 → exec form.1 s =
        .next ({ s with regs := form.2, cpsr := Psr.setT s.cpsr true }.jump (BitVec.ofNat 32 (v.toNat - 1)))) ∧
      (v.toNat % 4 = 0 → exec form.1 s =
        .next ({ s with regs := form.2, cpsr := Psr.setT s.cpsr false }.jump v)) ∧
      (v.toNat % 4 = 2 → exec form.1 s = .refused .branchTarget))

/-! ## Status registers -/

/-- R211: MRS reads all of the CPSR, in any mode, or of the SPSR, where the mode has one. -/
def Obligations.StatusRegisterRead : Prop :=
  ∀ (c : Cond) (r : Bool) (rd : Reg) (s : State), Cond.holds c s.cpsr = true →
    (rd ≠ 15 → exec (.mrs c false 15 rd 0 0) s = .next (s.wrote rd s.cpsr)) ∧
    (rd ≠ 15 → ∀ k, s.mode.spsrIndex = some k → exec (.mrs c true 15 rd 0 0) s = .next (s.wrote rd s.spsr[k])) ∧
    (rd ≠ 15 → s.mode = .usr ∨ s.mode = .sys → exec (.mrs c true 15 rd 0 0) s = .refused .noSpsr) ∧
    (rd = 15 → exec (.mrs c r 15 rd 0 0) s = .refused .r15Operand)

/-- R212, R23, U-G6, U-G12: MSR writes the bits that the field mask and the privilege allow: never T in the CPSR, only the
flags in User mode, every implemented bit of the SPSR. The writes that are UNPREDICTABLE stop. Both operand forms. A field
mask of zero is a NOP, whatever the operand and the mode (U-G6; that it comes before the tests of the operand is DEDUCED,
entry 43); Rm = R15 stops with a mask of zero too (DESIGN CHOICE, entry 43). -/
def Obligations.StatusRegisterWrite : Prop :=
  ∀ (c : Cond) (r : Bool) (mask rm rot : Reg) (imm : BitVec 8) (s : State), Cond.holds c s.cpsr = true →
    (rm = 15 → exec (.msrReg c r mask 15 0 rm) s = .refused .r15Operand) ∧
    (rm ≠ 15 → ∀ form ∈ [((fun r => Instr.msrReg c r mask 15 0 rm), s.reg rm),
        ((fun r => .msrImm c r mask 15 rot imm), rotatedImm rot imm)],
      let v := form.2
      let new (allowed : Word) : Word := replaceBits s.cpsr v (fieldBits mask &&& allowed)
      (mask = 0 → exec (form.1 r) s = .next { s with pc := s.nextPc }) ∧
      (mask ≠ 0 → v &&& 0x07FFFF00 ≠ 0 → exec (form.1 r) s = .refused .psrReservedBits) ∧
      (mask ≠ 0 → v &&& 0x07FFFF00 = 0 →
        (s.privileged = true → v &&& 0x20 = 0 → (Mode.ofBits (Psr.m (new 0xF80000DF))).isSome = true →
          exec (form.1 false) s = .next (s.flagged (new 0xF80000DF))) ∧
        (s.privileged = true → v &&& 0x20 = 0 → Mode.ofBits (Psr.m (new 0xF80000DF)) = none →
          exec (form.1 false) s = .refused .illegalMode) ∧
        (s.privileged = true → v &&& 0x20 ≠ 0 → exec (form.1 false) s = .refused .msrTBit) ∧
        (s.privileged = false → exec (form.1 false) s = .next (s.flagged (new 0xF8000000))) ∧
        (∀ k, s.mode.spsrIndex = some k → exec (form.1 true) s =
          .next { s with spsr := s.spsr.set k (replaceBits s.spsr[k] v (fieldBits mask &&& 0xF80000FF)), pc := s.nextPc }) ∧
        (s.mode = .usr ∨ s.mode = .sys → exec (form.1 true) s = .refused .noSpsr)))

/-! ## Exceptions -/

/-- R309, R310, R312, R313: what taking an exception writes, with the mode, the vector and the link value of each
exception in both instruction set states and for both vector bases; everything else is as it was. -/
def Obligations.ExceptionEntry : Prop :=
  ∀ (s : State),
    let base : Word := if s.cp15.v then 0xFFFF0000 else 0
    let next : Word := if s.thumb then 2 else 4
    ∀ x ∈ [(Exc.undefined, Mode.und, (4 : Fin 5), base + 0x04, s.pc + next),
        (.swi, .svc, 2, base + 0x08, s.pc + next), (.prefetchAbort, .abt, 3, base + 0x0C, s.pc + 4),
        (.dataAbort, .abt, 3, base + 0x10, s.pc + 8), (.irq, .irq, 1, base + 0x18, s.pc + 4),
        (.fiq, .fiq, 0, base + 0x1C, s.pc + 4)],
      let t := s.raise x.1
      Psr.m t.cpsr = x.2.1.bits ∧ Psr.t t.cpsr = false ∧ Psr.i t.cpsr = true ∧
        Psr.f t.cpsr = (Psr.f s.cpsr || decide (x.1 = .fiq)) ∧
        t.cpsr.extractLsb' 8 24 = s.cpsr.extractLsb' 8 24 ∧
        t.spsr = s.spsr.set x.2.2.1 s.cpsr ∧ t.regs = s.regs.set (physIndex x.2.1 14) x.2.2.2.2 ∧ t.pc = x.2.2.2.1 ∧
        t.fetch = { s.fetch with nonseq := true } ∧
        t.cp15 = s.cp15 ∧ t.dcc = s.dcc ∧ t.dbg = s.dbg ∧ t.itcm = s.itcm ∧ t.dtcm = s.dtcm ∧ t.ahb = s.ahb ∧
        t.standby = s.standby ∧ t.pins = s.pins ∧ t.cp = s.cp ∧ t.userXfer = s.userXfer ∧ t.fiqServed = s.fiqServed ∧
        t.irqServed = s.irqServed ∧ t.out = s.out ∧ t.chain = s.chain ∧ t.prefixes = s.prefixes ∧ t.etm = s.etm ∧
        t.freeCtr = s.freeCtr ∧ t.between = s.between ∧ t.env = s.env

/-- R213, R214, R307, R308, R315: the instructions that raise an exception raise it, whatever the immediate. -/
def Obligations.ExceptionInstructions : Prop :=
  ∀ (c : Cond) (i24 : BitVec 24) (i20 : BitVec 20) (i12 : BitVec 12) (i8 : BitVec 8) (i4 : BitVec 4) (b : Bool)
    (rn rd : Reg) (s : State),
    (Cond.holds c s.cpsr = true →
      exec (.swi c i24) s = .next (s.raise .swi) ∧
      exec (.undefinedArm c i20 i4) s = .next (s.raise .undefined) ∧
      exec (.undefinedArm2 c b rn rd i4 i8) s = .next (s.raise .undefined)) ∧
    exec (.tSwi i8) s = .next (s.raise .swi) ∧
    exec (.undefinedThumb i8) s = .next (s.raise .undefined) ∧
    exec (.tBkpt i8) s = .next (s.raise .prefetchAbort) ∧
    exec (.bkpt .al i12 i4) s = .next (s.raise .prefetchAbort) ∧
    (c ≠ .al → exec (.bkpt c i12 i4) s = .refused .conditionalBkpt)

/-- R313, R325: the return instruction of each exception, executed right after its entry, restores the CPSR and goes on
where R313 says: after the instruction, or at it; but for the R14 and the SPSR of the handler's mode, and the fetch stream,
which starts anew, nothing in the state has changed. -/
def Obligations.ExceptionReturnsWhereItLeft : Prop :=
  ∀ (s : State), (Mode.ofBits (Psr.m s.cpsr)).isSome = true → s.dbg.inDebug = false → s.pcAligned →
    ∀ x ∈ [(Exc.undefined, (4 : Fin 5), Instr.movShift .al true 0 15 0 .lsl 14, s.nextPc),
        (.swi, 2, .movShift .al true 0 15 0 .lsl 14, s.nextPc),
        (.prefetchAbort, 3, .subImm .al true 14 15 0 4, s.pc), (.dataAbort, 3, .subImm .al true 14 15 0 8, s.pc),
        (.irq, 1, .subImm .al true 14 15 0 4, s.pc), (.fiq, 0, .subImm .al true 14 15 0 4, s.pc)],
      exec x.2.2.1 (s.raise x.1) = .next
        { s with
          regs := s.regs.set (physIndex x.1.mode 14) (s.link x.1)
          spsr := s.spsr.set x.2.1 s.cpsr
          pc := x.2.2.2
          fetch := { s.fetch with nonseq := true } }

/-! ## Loads and stores -/

/-- R54: the bytes and halfwords of an aligned word, in both byte orders: address offset k is byte lane k with B = 0 and
lane 3 - k with B = 1; a word is the same in both. -/
def Obligations.ByteOrder : Prop :=
  ∀ (s : State) (a : Word), a.toNat % 4 = 0 →
    (s.loaded .word a = s.settledWord a) ∧
    (∀ k < 4, s.loaded .byte (a + BitVec.ofNat 32 k) =
      ((s.settledWord a).extractLsb' (8 * (if s.cp15.b then 3 - k else k)) 8).setWidth 32) ∧
    (∀ k < 2, s.loaded .half (a + BitVec.ofNat 32 (2 * k)) =
      ((s.settledWord a).extractLsb' (16 * (if s.cp15.b then 1 - k else k)) 16).setWidth 32)

/-- R217 to R228, R279 to R294: the loads of one register that complete. Rd gets the value, the base the new base where
the form writes it back, and nothing else changes. A load from the AHB while HREADY is held LOW for ever has no next state
(R357). -/
def Obligations.LoadResult : Prop :=
  ∀ (i : Instr) (x : LoadForm) (s : State),
    s.loadOf i = some x → Cond.holds x.cond s.cpsr = true → x.rd ≠ 15 →
    (armTransfer i = true ∨ misaligned x.size x.at_.address = false) →
      (s.readable x.force x.size x.at_.address →
        ∃ t, exec i s = .next t ∧
          t.regs = (s.withBase x.rn x.at_.newBase).set (physIndex s.mode x.rd)
            (x.value (s.loaded x.size x.at_.address)) ∧
          t.cpsr = s.cpsr ∧ WentOn s t ∧ SameSystem s t ∧ SameMemory s t) ∧
      (s.alignFault x.size x.at_.address = false → s.routeData (alignTo x.size x.at_.address) = .ahb →
        s.pins.ahbHung = true → exec i s = .fault .accessNeverCompletes)

/-- R219, R220: LDR of R15. With LT = 0 bit 0 of the word selects the state, with LT = 1 the state is kept and the low bits
are masked, as R219 has it: U-G9 lists those words as refused, and the model's reading is DEDUCED (entry 14). An unaligned
address with A = 0 is UNPREDICTABLE. -/
def Obligations.LoadPcResult : Prop :=
  ∀ (i : Instr) (x : LoadForm) (s : State),
    s.loadOf i = some x → Cond.holds x.cond s.cpsr = true → x.rd = 15 →
    (s.readable x.force x.size x.at_.address → x.at_.address.toNat % 4 = 0 →
      let v := s.loaded .word x.at_.address
      let after (p target : Word) : Prop :=
        ∃ t, exec i s = .next t ∧ t.regs = s.withBase x.rn x.at_.newBase ∧ t.cpsr = p ∧ t.pc = target ∧
          t.fetch = { s.fetch with nonseq := true } ∧ SameSystem s t ∧ SameMemory s t
      (s.cp15.lt = false → v.toNat % 2 = 1 → after (Psr.setT s.cpsr true) (v - 1)) ∧
      (s.cp15.lt = false → v.toNat % 4 = 0 → after (Psr.setT s.cpsr false) v) ∧
      (s.cp15.lt = false → v.toNat % 4 = 2 → exec i s = .refused .branchTarget) ∧
      (s.cp15.lt = true → after s.cpsr (if s.thumb then v &&& 0xFFFFFFFE else v &&& 0xFFFFFFFC))) ∧
    (x.at_.address.toNat % 4 ≠ 0 → s.cp15.a = false → exec i s = .refused .branchTarget)

/-- R221, R223, R224, R226, R281 to R295: the stores of one register that complete. Every byte of memory is known
afterwards: the bytes at the address have the value, the others are as they were. Where a buffered write is answered with
ERROR, all bytes are as they were (R71; DEDUCED, entry 20). -/
def Obligations.StoreResult : Prop :=
  ∀ (i : Instr) (x : StoreForm) (s : State),
    s.storeOf i = some x → Cond.holds x.cond s.cpsr = true → s.memoryInForm →
    s.writable x.force false x.size x.at_.address →
    (armTransfer i = true ∨ misaligned x.size x.at_.address = false) →
      ∃ t, exec i s = .next t ∧ t.regs = s.withBase x.rn x.at_.newBase ∧ t.cpsr = s.cpsr ∧ WentOn s t ∧
        SameSystem s t ∧
        ∀ p, t.byteAt p = s.storedByte x.force x.size x.at_.address (s.storeReg x.rd) p (s.byteAt p)

/-- R217, R318: a load or store of one register or a swap that aborts, by an alignment fault or by an error of the memory: Rd
and the base keep their values, memory keeps its contents, and the Data Abort is taken. Of an LDRD that aborts, the two
registers are open and the others and memory are as they were; of an STRD, the two words may be written and nothing else
is. That CPLATECANCEL is HIGH after every Data Abort, whatever instruction follows (R152), is DEDUCED (entry 41). -/
def Obligations.AbortedTransferChangesNothing : Prop :=
  (∀ (i : Instr) (c : Cond) (size : Size) (a : Word) (fails : Bool) (s : State),
    ((∃ x, s.loadOf i = some x ∧ c = x.cond ∧ size = x.size ∧ a = x.at_.address ∧
        fails = s.readFails x.force size (alignTo size a) ∧ (x.rd = 15 → misaligned size a = false ∨ s.cp15.a = true)) ∨
      (∃ x, s.storeOf i = some x ∧ c = x.cond ∧ size = x.size ∧ a = x.at_.address ∧
        fails = s.writeFails x.force false (alignTo size a))) →
    Cond.holds c s.cpsr = true → s.unwatched →
    (s.alignFault size a = true ∨
      (armTransfer i = true ∨ misaligned size a = false) ∧ s.mapped (alignTo size a) = true ∧ fails = true) →
      ∃ t, exec i s = .next t ∧ AbortedFrom s t) ∧
  (∀ (c : Cond) (rn rd rm : Reg) (s : State),
    Cond.holds c s.cpsr = true → rn ≠ 15 → rd ≠ 15 → rm ≠ 15 → rn ≠ rm → rn ≠ rd →
    ∀ form ∈ [(Instr.swp c rn rd 0 rm, Size.word), (.swpb c rn rd 0 rm, .byte)],
      (s.readAborts false form.2 (s.reg rn) ∨ s.writeAborts false true form.2 (s.reg rn)) →
        ∃ t, exec form.1 s = .next t ∧ AbortedFrom s t) ∧
  (∀ (c : Cond) (p u w : Bool) (rn rd rm : Reg) (imm : BitVec 8) (m : Addressed) (s : State),
    Cond.holds c s.cpsr = true → rd.toNat % 2 = 0 → rd ≠ 14 → (m.newBase ≠ none → rn ≠ rd + 1) → s.between = [] →
    ∀ form ∈ [(Instr.ldrdImm c p u w rn rd imm, Instr.strdImm c p u w rn rd imm, (none : Option Reg), imm.setWidth 32),
        (.ldrdReg c p u w rn rd 0 rm, .strdReg c p u w rn rd 0 rm, some rm, s.reg rm)],
      addressMode3 p u w (s.reg rn) form.2.2.2 = some m →
      transferLegal m.newBase.isSome rn rd form.2.2.1 true = true →
        let a := m.address
        let faulty := s.cp15.a = true ∧ a.toNat % 8 ≠ 0
        (form.2.2.1 ≠ some rd → form.2.2.1 ≠ some (rd + 1) →
          (faulty ∨ a.toNat % 8 = 0 ∧ (s.readAborts false .word a ∨
            s.readable false .word a ∧ s.readAborts false .word (a + 4))) →
          ∃ t, exec form.1 s = .next t ∧ AbortTaken s t ∧ SameMemory s t ∧
            ∀ k : Fin 30, k ≠ physIndex .abt 14 →
              (k ≠ physIndex s.mode rd ∧ k ≠ physIndex s.mode (rd + 1) ∨ rn ≠ 15 ∧ k = physIndex s.mode rn) →
              t.regs[k] = s.regs[k]) ∧
        (s.memoryInForm →
          (faulty ∨ a.toNat % 8 = 0 ∧ (s.writeAborts false false .word a ∨
            s.writable false false .word a ∧ s.writeAborts false false .word (a + 4))) →
          ∃ t, exec form.2.1 s = .next t ∧ AbortedClean s t ∧
            ∀ q, (faulty ∨ s.laneAt .word a q = none ∧ s.laneAt .word (a + 4) q = none) → t.byteAt q = s.byteAt q))

/-- R215, R216, R226, R229 to R232, R234, R238, R239, R241, U-G7, U-G8, U-G11, D14: a load or store of one register or of a
doubleword with R15, one register twice or an odd register where a rule excludes it stops, and so do the swaps with R15 or with
the base as another operand, halfwords and doublewords of ARM state at unaligned addresses with A = 0, and the multiple transfers
that are UNPREDICTABLE. -/
def Obligations.ExcludedTransfersStop : Prop :=
  ∀ (c : Cond) (x : Indexing) (u p w : Bool) (rn rd rm : Reg) (imm : BitVec 12) (imm8 : BitVec 8) (sh : BitVec 5)
    (k : ShiftKind) (lo : LoReg) (list : BitVec 16) (low : BitVec 15) (s : State), Cond.holds c s.cpsr = true →
    (transferLegal (writesBack x) rn rd none false = false →
      ∀ i ∈ [Instr.ldrImm c x u rn rd imm, .strImm c x u rn rd imm], ∃ r, exec i s = .refused r) ∧
    (transferLegal (writesBack x) rn rd (some rm) false = false →
      ∀ i ∈ [Instr.ldrReg c x u rn rd sh k rm, .strReg c x u rn rd sh k rm], ∃ r, exec i s = .refused r) ∧
    (transferLegal (writesBack x) rn rd none true = false →
      ∀ i ∈ [Instr.ldrbImm c x u rn rd imm, .strbImm c x u rn rd imm], ∃ r, exec i s = .refused r) ∧
    (transferLegal (writesBack x) rn rd (some rm) true = false →
      ∀ i ∈ [Instr.ldrbReg c x u rn rd sh k rm, .strbReg c x u rn rd sh k rm], ∃ r, exec i s = .refused r) ∧
    (transferLegal true rn rd none true = false →
      ∀ i ∈ [Instr.ldrtImm c u rn rd imm, .ldrbtImm c u rn rd imm, .strtImm c u rn rd imm, .strbtImm c u rn rd imm],
        ∃ r, exec i s = .refused r) ∧
    (transferLegal true rn rd (some rm) true = false →
      ∀ i ∈ [Instr.ldrtReg c u rn rd sh k rm, .ldrbtReg c u rn rd sh k rm, .strtReg c u rn rd sh k rm,
        .strbtReg c u rn rd sh k rm], ∃ r, exec i s = .refused r) ∧
    ((p = false ∧ w = true ∨ transferLegal (!p || w) rn rd none true = false) →
      ∀ i ∈ [Instr.ldrhImm c p u w rn rd imm8, .ldrsbImm c p u w rn rd imm8, .ldrshImm c p u w rn rd imm8,
        .strhImm c p u w rn rd imm8, .ldrdImm c p u w rn rd imm8, .strdImm c p u w rn rd imm8],
        ∃ r, exec i s = .refused r) ∧
    ((p = false ∧ w = true ∨ transferLegal (!p || w) rn rd (some rm) true = false) →
      ∀ i ∈ [Instr.ldrhReg c p u w rn rd 0 rm, .ldrsbReg c p u w rn rd 0 rm, .ldrshReg c p u w rn rd 0 rm,
        .strhReg c p u w rn rd 0 rm, .ldrdReg c p u w rn rd 0 rm, .strdReg c p u w rn rd 0 rm],
        ∃ r, exec i s = .refused r) ∧
    (∀ i ∈ [Instr.ldm c p u w rn 0, .stm c p u w rn 0, .ldmUser c p u w rn 0, .stmUser c p u w rn 0, .tPush false 0,
        .tPop false 0, .tLdmia lo 0, .tStmia lo 0], exec i s = .refused .emptyList) ∧
    (list ≠ 0 → low ≠ 0 → ∀ i ∈ [Instr.ldm c p u w 15 list, .stm c p u w 15 list, .ldmUser c p u w 15 low,
        .stmUser c p u w 15 list], exec i s = .refused .r15Operand) ∧
    (rn ≠ 15 → rn ∈ listRegs list → exec (.ldm c p u true rn list) s = .refused .baseInList) ∧
    (list ≠ 0 → low ≠ 0 → rn ≠ 15 → (w = true ∨ s.mode = .usr ∨ s.mode = .sys) →
      exec (.ldmUser c p u w rn low) s = .refused .userTransfer ∧
      exec (.stmUser c p u w rn list) s = .refused .userTransfer) ∧
    (s.mode = .usr ∨ s.mode = .sys → exec (.ldmReturn c p u w rn low) s = .refused .noSpsr) ∧
    (s.mode ≠ .usr → s.mode ≠ .sys →
      exec (.ldmReturn c p u w 15 low) s = .refused .r15Operand ∧
      (rn ≠ 15 → rn ∈ listRegs low → exec (.ldmReturn c p u true rn low) s = .refused .baseInList)) ∧
    ((rd.toNat % 2 = 1 ∨ rd = 14 ∨ ((!p || w) = true ∧ rn = rd + 1)) →
      ∀ i ∈ [Instr.ldrdImm c p u w rn rd imm8, .strdImm c p u w rn rd imm8, .ldrdReg c p u w rn rd 0 rm,
        .strdReg c p u w rn rd 0 rm], ∃ r, exec i s = .refused r) ∧
    ((rm = rd ∨ rm = rd + 1) → ∃ r, exec (.ldrdReg c p u w rn rd 0 rm) s = .refused r) ∧
    (rn = 15 ∨ rd = 15 ∨ rm = 15 → ∀ i ∈ [Instr.swp c rn rd 0 rm, .swpb c rn rd 0 rm], exec i s = .refused .r15Operand) ∧
    (rn ≠ 15 → rd ≠ 15 → rm ≠ 15 → rn = rm ∨ rn = rd → ∀ i ∈ [Instr.swp c rn rd 0 rm, .swpb c rn rd 0 rm],
      exec i s = .refused .registerClash) ∧
    (s.cp15.a = false → ∀ m : Addressed,
      (addressMode3 p u w (s.reg rn) (imm8.setWidth 32) = some m →
        (m.address.toNat % 2 = 1 → ∀ i ∈ [Instr.ldrhImm c p u w rn rd imm8, .ldrshImm c p u w rn rd imm8,
          .strhImm c p u w rn rd imm8], ∃ r, exec i s = .refused r) ∧
        (m.address.toNat % 8 ≠ 0 → ∀ i ∈ [Instr.ldrdImm c p u w rn rd imm8, .strdImm c p u w rn rd imm8],
          ∃ r, exec i s = .refused r)) ∧
      (addressMode3 p u w (s.reg rn) (s.reg rm) = some m →
        (m.address.toNat % 2 = 1 → ∀ i ∈ [Instr.ldrhReg c p u w rn rd 0 rm, .ldrshReg c p u w rn rd 0 rm,
          .strhReg c p u w rn rd 0 rm], ∃ r, exec i s = .refused r) ∧
        (m.address.toNat % 8 ≠ 0 → ∀ i ∈ [Instr.ldrdReg c p u w rn rd 0 rm, .strdReg c p u w rn rd 0 rm],
          ∃ r, exec i s = .refused r)))

/-- R229, R230: LDRD and STRD that complete, both operand forms: two words in ascending order, the word at the lower
address with the even register. A buffered word answered with ERROR leaves its bytes as they were (R71; DEDUCED, entry 20).
What other agents do between the two reads of an LDRD reaches the second one (R60). -/
def Obligations.DoublewordResult : Prop :=
  ∀ (c : Cond) (p u w : Bool) (rn rd rm : Reg) (imm : BitVec 8) (m : Addressed) (s : State),
    Cond.holds c s.cpsr = true → rd.toNat % 2 = 0 → rd ≠ 14 → m.address.toNat % 8 = 0 →
    (m.newBase ≠ none → rn ≠ rd + 1) →
    let loaded (lo hi : Word) : Vector Word 30 :=
      let v := s.withRegs2 rd lo (rd + 1) hi
      match m.newBase with | none => v | some b => v.set (physIndex s.mode rn) b
    ∀ form ∈ [(Instr.ldrdImm c p u w rn rd imm, Instr.strdImm c p u w rn rd imm, (none : Option Reg), imm.setWidth 32),
        (.ldrdReg c p u w rn rd 0 rm, .strdReg c p u w rn rd 0 rm, some rm, s.reg rm)],
      addressMode3 p u w (s.reg rn) form.2.2.2 = some m →
      transferLegal m.newBase.isSome rn rd form.2.2.1 true = true →
        (form.2.2.1 ≠ some rd → form.2.2.1 ≠ some (rd + 1) → s.readable false .word m.address →
          (s.between = [] → s.readable false .word (m.address + 4) →
            ∃ t, exec form.1 s = .next t ∧
              t.regs = loaded (s.loaded .word m.address) (s.loaded .word (m.address + 4)) ∧
              t.cpsr = s.cpsr ∧ WentOn s t ∧ SameSystem s t ∧ SameMemory s t) ∧
          (∀ lo s1, memRead false .word m.address s = .ok lo s1 →
            s1.betweenAccesses.readable false .word (m.address + 4) →
            ∃ t, exec form.1 s = .next t ∧
              t.regs = loaded (s.loaded .word m.address) (s1.betweenAccesses.loaded .word (m.address + 4)) ∧
              t.cpsr = s.cpsr ∧ WentOn s t ∧ SameMemory s1.betweenAccesses t)) ∧
        (s.memoryInForm → s.between = [] → s.writable false false .word m.address → s.writable false false .word (m.address + 4) →
          ∃ t, exec form.2.1 s = .next t ∧ t.regs = s.withBase rn m.newBase ∧ t.cpsr = s.cpsr ∧ WentOn s t ∧
            SameSystem s t ∧
            ∀ q, t.byteAt q = s.storedWords [(m.address, s.reg rd), (m.address + 4, s.reg (rd + 1))] q)

/-- R231, R232: SWP and SWPB that complete: Rd gets what memory held, memory gets Rm. That no other agent acts between the
read and the write, also on a TCM where R60 leaves it to the memory's designer, is DESIGN CHOICE (entry 7). -/
def Obligations.SwapResult : Prop :=
  ∀ (c : Cond) (rn rd rm : Reg) (s : State),
    Cond.holds c s.cpsr = true → rn ≠ 15 → rd ≠ 15 → rm ≠ 15 → rn ≠ rm → rn ≠ rd → s.memoryInForm →
    ∀ form ∈ [(Instr.swp c rn rd 0 rm, Size.word,
          (s.loaded .word (s.reg rn)).rotateRight (8 * ((s.reg rn).toNat % 4))),
        (.swpb c rn rd 0 rm, .byte, s.loaded .byte (s.reg rn))],
      s.readable false form.2.1 (s.reg rn) → s.writable false true form.2.1 (s.reg rn) →
        ∃ t, exec form.1 s = .next t ∧ t.regs = s.withReg rd form.2.2 ∧ t.cpsr = s.cpsr ∧ WentOn s t ∧
          SameSystem s t ∧
          ∀ p, t.byteAt p = s.storedByte false form.2.1 (s.reg rn) (s.reg rm) p (s.byteAt p)


/-- R57, U-G13: a Thumb word or halfword at an unaligned address with A = 0: the instruction completes, and the value
loaded, or the aligned word stored, is a free value (DESIGN CHOICE, entry 8: the spec leaves it open). That a halfword store
frees the whole aligned word is DEDUCED (entry 25), and so is a buffered word answered with ERROR (entry 20); that it makes a
word access, to a place where a word can be written, is DESIGN CHOICE (entry 25). -/
def Obligations.ThumbUnalignedIsFree : Prop :=
  ∀ (imm : BitVec 5) (imm8 : BitVec 8) (rm rn rd : LoReg) (s : State), s.cp15.a = false →
    (∀ i ∈ [Instr.tLdrReg rm rn rd, .tLdrhReg rm rn rd, .tLdrshReg rm rn rd, .tLdrImm imm rn rd, .tLdrhImm imm rn rd,
        .tLdrSp rd imm8], ∀ x, s.loadOf i = some x → misaligned x.size x.at_.address = true →
      s.readable false x.size x.at_.address →
        ∃ t, exec i s = .next t ∧ t.regs = s.withReg rd.reg (Config.freeWord s.freeCtr) ∧ t.cpsr = s.cpsr ∧
          WentOn s t ∧ SameSystem s t ∧ SameMemory s t) ∧
    (∀ i ∈ [Instr.tStrReg rm rn rd, .tStrhReg rm rn rd, .tStrImm imm rn rd, .tStrhImm imm rn rd, .tStrSp rd imm8],
      ∀ x, s.storeOf i = some x → misaligned x.size x.at_.address = true → s.memoryInForm →
      s.writable false false .word (alignTo .word x.at_.address) →
        ∃ t, exec i s = .next t ∧ t.regs = s.regs ∧ t.cpsr = s.cpsr ∧ WentOn s t ∧ SameSystem s t ∧
          ∀ p, t.byteAt p =
            s.storedByte false .word (alignTo .word x.at_.address) (Config.freeWord s.freeCtr) p (s.byteAt p))

/-- R219, R234 to R238, R297, R298: LDM, LDM of the User bank, POP and LDMIA that complete, without and with R15 in the
list, while no other agent acts between the words. With LT = 1 the low bits of a loaded pc are masked, as R219 has it, where
U-G9 lists them as refused (DEDUCED, entry 14). -/
def Obligations.LoadMultipleResult : Prop :=
  ∀ (i : Instr) (x : MultipleForm) (v : Word) (s : State),
    s.multipleLoad i = some x → Cond.holds x.cond s.cpsr = true → s.between = [] →
    (∀ a ∈ x.addresses, s.readable false .word a) → x.addresses.getLast?.map (s.loaded .word) = some v →
      let after (p target : Word) : Prop :=
        ∃ t, exec i s = .next t ∧ t.regs = s.loadedList x ∧ t.cpsr = p ∧ t.pc = target ∧
          t.fetch = { s.fetch with nonseq := true } ∧ SameSystem s t ∧ SameMemory s t
      (15 ∉ x.regs → ∃ t, exec i s = .next t ∧ t.regs = s.loadedList x ∧ t.cpsr = s.cpsr ∧ WentOn s t ∧
        t.userXfer = (s.userXfer || x.user) ∧ SameSystem s { t with userXfer := s.userXfer } ∧ SameMemory s t) ∧
      (15 ∈ x.regs → s.cp15.lt = false → v.toNat % 2 = 1 → after (Psr.setT s.cpsr true) (v - 1)) ∧
      (15 ∈ x.regs → s.cp15.lt = false → v.toNat % 4 = 0 → after (Psr.setT s.cpsr false) v) ∧
      (15 ∈ x.regs → s.cp15.lt = false → v.toNat % 4 = 2 → exec i s = .refused .branchTarget) ∧
      (15 ∈ x.regs → s.cp15.lt = true →
        after s.cpsr (if s.thumb then v &&& 0xFFFFFFFE else v &&& 0xFFFFFFFC))

/-- R239, R325: LDM with exception return: the registers in the bank of the mode it runs in, then the CPSR from the SPSR
and the pc from the last word. -/
def Obligations.LoadMultipleReturnResult : Prop :=
  ∀ (c : Cond) (p u w : Bool) (rn : Reg) (list : BitVec 15) (x : MultipleForm) (k : Fin 5) (v : Word) (s : State),
    Cond.holds c s.cpsr = true → s.mode.spsrIndex = some k → (Mode.ofBits (Psr.m s.spsr[k])).isSome = true →
    s.mode4 c s.mode p u w rn (listRegs list ++ [15]) false = some x → (w = true → rn ∉ listRegs list) →
    s.between = [] → (∀ a ∈ x.addresses, s.readable false .word a) → x.addresses.getLast?.map (s.loaded .word) = some v →
      ∃ t, exec (.ldmReturn c p u w rn list) s = .next t ∧ t.regs = s.loadedList x ∧ t.cpsr = s.spsr[k] ∧
        t.pc = (if Psr.t s.spsr[k] then v &&& 0xFFFFFFFE else v &&& 0xFFFFFFFC) ∧
        t.fetch = { s.fetch with nonseq := true } ∧ SameSystem s t ∧ SameMemory s t

/-- R234, R235, R240, R241, R296, R299: STM, STM of the User bank, PUSH and STMIA that complete: every byte of memory
afterwards, while no other agent acts between the words. A base that is written back and is not the lowest register of the
list is stored as a free value (U-G11; DESIGN CHOICE, entry 8); a buffered word answered with ERROR leaves its bytes as they
were (R71; DEDUCED, entry 20). -/
def Obligations.StoreMultipleResult : Prop :=
  ∀ (i : Instr) (x : MultipleForm) (s : State),
    s.multipleStore i = some x → Cond.holds x.cond s.cpsr = true → s.memoryInForm → s.between = [] →
    (∀ a ∈ x.addresses, s.writable false false .word a) →
      ∃ t, exec i s = .next t ∧ t.regs = s.withBase x.rn x.newBase ∧ t.cpsr = s.cpsr ∧ WentOn s t ∧
        t.userXfer = (s.userXfer || x.user) ∧ SameSystem s { t with userXfer := s.userXfer } ∧
        ∀ p, t.byteAt p = s.storedWords (x.addresses.zip (x.regs.map (s.listValue x))) p


/-- R236, R155, R156: a multiple transfer or a coprocessor transfer that aborts takes the Data Abort; the base, the registers
that are not listed, the CPSR it saves, and memory outside the words of a store are as they were. The words before the one that
aborts have been stored, or given to the coprocessor. Each byte of the later words of an STM is the old one or the one stored:
which is free (U-46-2), as the registers of an aborted LDM are (U-46-1). (A buffered word answered with ERROR leaves its bytes
as they were: R71; DEDUCED, entry 20. The lists of handshake cycles, and what a transfer takes off them, are DESIGN CHOICE,
entry 27; that an LDC, an STC or an LDM makes no further access after the abort, and that a later word which could not be
written holds up no STM, is DESIGN CHOICE, entry 17; that CPLATECANCEL is HIGH after every Data Abort is DEDUCED, entry 41.) -/
def Obligations.AbortedMultipleTransfer : Prop :=
  (∀ (i : Instr) (x : MultipleForm) (s : State),
    (s.multipleLoad i = some x ∨ ∃ c p u w rn list, i = .ldmReturn c p u w rn list ∧ s.spsr?.isSome = true ∧
      (w = true → rn ∉ listRegs list) ∧ s.mode4 c s.mode p u w rn (listRegs list ++ [15]) false = some x) →
    Cond.holds x.cond s.cpsr = true → s.unwatched → s.between = [] →
    (∀ a ∈ x.addresses, s.mapped (alignTo .word a) = true) →
    (∃ a ∈ x.addresses, s.alignFault .word a = true ∨ s.readFails false .word (alignTo .word a) = true) →
      ∃ t, exec i s = .next t ∧ AbortTaken s t ∧ SameMemory s t ∧
        (∀ k : Fin 30, k ≠ physIndex .abt 14 → (∀ r ∈ x.regs, r ≠ 15 → physIndex x.bank r ≠ k) → t.regs[k] = s.regs[k]) ∧
        (x.rn ≠ 14 ∨ s.mode ≠ .abt → t.regs[physIndex s.mode x.rn] = s.regs[physIndex s.mode x.rn])) ∧
  (∀ (i : Instr) (x : MultipleForm) (pre post : List Word) (a : Word) (s : State),
    s.multipleStore i = some x → Cond.holds x.cond s.cpsr = true → s.memoryInForm → s.between = [] →
    x.addresses = pre ++ a :: post → (∀ b ∈ pre, s.writable false false .word b) → s.writeAborts false false .word a →
      ∃ t, exec i s = .next t ∧ AbortedClean s t ∧
        let values := x.regs.map (s.listValue x)
        ∀ p, let old := s.storedWords (pre.zip values) p
          t.byteAt p = old ∨
            ∃ w ∈ post.zip (values.drop (pre.length + 1)), t.byteAt p = s.storedByte false .word w.1 w.2 p old) ∧
  (∀ (c : Cond) (y : CpIndexing) (n : Bool) (rn crd cp : Reg) (imm : BitVec 8) (moved ws : List Word) (w : Word)
    (last : CpReply) (rs : List CpReply) (s r : State),
    Cond.holds c s.cpsr = true → externalCp cp = true → s.between = [] → s.cpReplies cp = ws.map .go ++ last :: rs →
    (last = .go w ∨ last = .last w) → moved.length + ws.length < 16 →
    let m := cpAddress y (s.reg rn) imm
    let first := m.address + BitVec.ofNat 32 (4 * moved.length)
    let pre := wordAddresses first ws.length
    let a := first + BitVec.ofNat 32 (4 * ws.length)
    (m.newBase = none ∨ rn ≠ 15) →
      (∀ i ∈ [Instr.ldc c y n rn crd cp imm, .ldc2 y n rn crd cp imm], s.offers cp i moved r →
        (∀ b ∈ pre, s.readable false .word b) → s.readAborts false .word a →
        ∃ t, exec i s = .next t ∧ AbortedClean s { t with cp := s.cp } ∧ SameMemory s t ∧
          t.cp = ((r.sendWords cp (pre.map (s.loaded .word))).answered cp rs).cp) ∧
      (∀ i ∈ [Instr.stc c y n rn crd cp imm, .stc2 y n rn crd cp imm], s.offers cp i moved r → s.memoryInForm →
        (∀ b ∈ pre, s.writable false false .word b) → s.writeAborts false false .word a →
        ∃ t, exec i s = .next t ∧ AbortedClean s { t with cp := s.cp } ∧ t.cp = (r.answered cp rs).cp ∧
          ∀ p, t.byteAt p = s.storedWords (pre.zip ws) p))

/-- R220, R221, R54: a word stored is the word loaded back from the same address, through the write buffers. -/
def Obligations.StoreThenLoadReturnsValue : Prop :=
  ∀ (rn rd rm : Reg) (s t : State),
    s.memoryInForm → rn ≠ 15 → rd ≠ 15 → rm ≠ 15 → (s.reg rn).toNat % 4 = 0 →
    s.writable false false .word (s.reg rn) → s.lostWrite false (s.reg rn) = false →
    exec (.strImm .al .offset true rn rd 0) s = .next t → t.readable false .word (s.reg rn) →
      ∃ u, exec (.ldrImm .al .offset true rn rm 0) t = .next u ∧ u.reg rm = s.reg rd

/-! ## Thumb -/

/-- R255, R256, R267, R269, R270: AND, EOR, ORR, BIC and MVN of two low registers, with their encodings: N and Z from the
result, C and V as they were. -/
def Obligations.ThumbLogicRules : Prop :=
  ∀ (rm rd : LoReg) (s : State),
    let a := s.reg rd.reg
    let b := s.reg rm.reg
    ∀ x ∈ [(0b0100000000#10, Instr.tAnd rm rd, a &&& b), (0b0100000001#10, .tEor rm rd, a ^^^ b),
        (0b0100001100#10, .tOrr rm rd, a ||| b), (0b0100001110#10, .tBic rm rd, a &&& ~~~b),
        (0b0100001111#10, .tMvn rm rd, ~~~b)],
      decode (.thumb (x.1 ++ rm ++ rd)) = x.2.1 ∧
      exec x.2.1 s = .next (s.wroteFlags rd.reg x.2.2 (Psr.setNz s.cpsr x.2.2.msb (decide (x.2.2 = 0))))

/-- R274 to R277: the additions to the PC and to SP, with their encodings: no flag changes. -/
def Obligations.ThumbAddressRules : Prop :=
  ∀ (rd : LoReg) (i8 : BitVec 8) (i7 : BitVec 7) (s : State), s.thumb = true →
    let wide (k : Nat) : Word := BitVec.ofNat 32 (4 * k)
    decode (.thumb (0b10100#5 ++ rd ++ i8)) = .tAddPcImm rd i8 ∧
    decode (.thumb (0b10101#5 ++ rd ++ i8)) = .tAddSpImm rd i8 ∧
    decode (.thumb (0b101100000#9 ++ i7)) = .tAddSp i7 ∧
    decode (.thumb (0b101100001#9 ++ i7)) = .tSubSp i7 ∧
    exec (.tAddPcImm rd i8) s = .next (s.wrote rd.reg (((s.pc + 4) &&& 0xFFFFFFFC) + wide i8.toNat)) ∧
    exec (.tAddSpImm rd i8) s = .next (s.wrote rd.reg (s.reg 13 + wide i8.toNat)) ∧
    exec (.tAddSp i7) s = .next (s.wrote 13 (s.reg 13 + wide i7.toNat)) ∧
    exec (.tSubSp i7) s = .next (s.wrote 13 (s.reg 13 - wide i7.toNat))

/-- R244 to R254, R257 to R266, R268, R272: the Thumb shifts, additions, subtractions, comparisons, MOV of an immediate, TST
and MUL; MUL with Rd = Rm is UNPREDICTABLE. -/
def Obligations.ThumbArithmeticResult : Prop :=
  ∀ (rm rn rd : LoReg) (i3 : BitVec 3) (i5 : BitVec 5) (i8 : BitVec 8) (hm hn : Reg) (s : State),
    let x (r : LoReg) : Word := s.reg r.reg
    let w3 : Word := i3.setWidth 32
    let w8 : Word := i8.setWidth 32
    let set (o : AluOut) : Result := .next (s.wroteFlags rd.reg o.result (flagsOf s.cpsr o))
    let compare (o : AluOut) : Result := .next (s.flagged (flagsOf s.cpsr o))
    let shift (o : ShifterOut) : Result := set ⟨o.value, o.carry, Psr.v s.cpsr⟩
    let logic (v : Word) : Word := Psr.setNz s.cpsr v.msb (decide (v = 0))
    let product : Word := BitVec.ofNat 32 ((x rm).toNat * (x rd).toNat)
    (exec (.tAddReg rm rn rd) s = set (sumRule (x rn) (x rm) false) ∧
      exec (.tAddImm3 i3 rn rd) s = set (sumRule (x rn) w3 false) ∧
      exec (.tAddImm8 rd i8) s = set (sumRule (x rd) w8 false) ∧
      exec (.tAdc rm rd) s = set (sumRule (x rd) (x rm) (Psr.c s.cpsr)) ∧
      exec (.tSubReg rm rn rd) s = set (sumRule (x rn) (~~~(x rm)) true) ∧
      exec (.tSubImm3 i3 rn rd) s = set (sumRule (x rn) (~~~w3) true) ∧
      exec (.tSubImm8 rd i8) s = set (sumRule (x rd) (~~~w8) true) ∧
      exec (.tSbc rm rd) s = set (sumRule (x rd) (~~~(x rm)) (Psr.c s.cpsr)) ∧
      exec (.tNeg rm rd) s = set (sumRule 0 (~~~(x rm)) true)) ∧
    (exec (.tCmpImm rn i8) s = compare (sumRule (x rn) (~~~w8) true) ∧
      exec (.tCmpReg rm rn) s = compare (sumRule (x rn) (~~~(x rm)) true) ∧
      exec (.tCmn rm rn) s = compare (sumRule (x rn) (x rm) false) ∧
      ((8 ≤ hm.toNat ∨ 8 ≤ hn.toNat) → hn ≠ 15 →
        exec (.tCmpHi hm hn) s = compare (sumRule (s.reg hn) (~~~(s.reg hm)) true)) ∧
      exec (.tTst rm rn) s = .next (s.flagged (logic (x rn &&& x rm)))) ∧
    (exec (.tLslImm i5 rm rd) s = shift (immShiftOperand i5 .lsl rm.reg s) ∧
      exec (.tLsrImm i5 rm rd) s = shift (immShiftOperand i5 .lsr rm.reg s) ∧
      exec (.tAsrImm i5 rm rd) s = shift (immShiftOperand i5 .asr rm.reg s) ∧
      exec (.tLslReg rm rd) s = shift (regShiftOperand rm.reg .lsl rd.reg s) ∧
      exec (.tLsrReg rm rd) s = shift (regShiftOperand rm.reg .lsr rd.reg s) ∧
      exec (.tAsrReg rm rd) s = shift (regShiftOperand rm.reg .asr rd.reg s) ∧
      exec (.tRorReg rm rd) s = shift (regShiftOperand rm.reg .ror rd.reg s)) ∧
    exec (.tMovImm rd i8) s = .next (s.wroteFlags rd.reg w8 (logic w8)) ∧
    exec (.tMul rm rd) s =
      if rm = rd then .refused .registerClash else .next (s.wroteFlags rd.reg product (logic product))

/-- R243, R271 to R273: ADD and MOV with high registers: no flag changes, R15 as destination is a branch within Thumb
state, whose sum is taken modulo 2^32 (DESIGN CHOICE, entry 16). Two low registers are UNPREDICTABLE, and so is R15 as first
operand of CMP. -/
def Obligations.ThumbHighRegisterResult : Prop :=
  ∀ (rm rd : Reg) (s : State),
    let write (v : Word) : Result :=
      .next (if rd = 15 then s.jump (v &&& 0xFFFFFFFE) else s.wrote rd v)
    if rm.toNat < 8 ∧ rd.toNat < 8 then
      ∀ i ∈ [Instr.tAddHi rm rd, .tMovHi rm rd, .tCmpHi rm rd], exec i s = .refused .reservedField
    else
      exec (.tAddHi rm rd) s = write (s.reg rd + s.reg rm) ∧ exec (.tMovHi rm rd) s = write (s.reg rm) ∧
      (rd = 15 → exec (.tCmpHi rm rd) s = .refused .r15Operand)

/-- R300 to R304: the Thumb branches and the two halves of BL and BLX. A target past an end of the address space is
UNPREDICTABLE (R24, R205 (e)). The prefix leaves the sum modulo 2^32 in R14 and is noted; a suffix whose prefix is noted, with
the R14 that it left, starts from that exact sum and uses the note up, any other suffix from the address in R14 (R117). So a
prefix and its suffix branch to the exact sum of both offsets, and leave the return address. Bit 0 of a BL target is ignored.
(The note, and the ignored bit 0: DEDUCED, entry 24.) -/
def Obligations.ThumbBranchResult : Prop :=
  ∀ (c : Cond) (i8 : BitVec 8) (i11 : BitVec 11) (i10 : BitVec 10) (s : State),
    let near : Int := s.pc.toNat + 4 + 2 * i8.toInt
    let far : Int := s.pc.toNat + 4 + 2 * i11.toInt
    let note : BlPrefix := ⟨s.pc, s.reg 14⟩
    let linked : State := { s with regs := s.withReg 14 ((s.pc + 2) ||| 1), prefixes := s.prefixes.erase note }
    (Cond.holds c s.cpsr = true → exec (.tBCond c i8) s =
      if 0 ≤ near ∧ near < 4294967296 then .next (s.jump (BitVec.ofInt 32 near)) else .refused .addressWrap) ∧
    (exec (.tB i11) s =
      if 0 ≤ far ∧ far < 4294967296 then .next (s.jump (BitVec.ofInt 32 far)) else .refused .addressWrap) ∧
    (s.thumb = true →
      let high : Word := s.pc + 4 + BitVec.ofInt 32 (4096 * i11.toInt)
      let noted : State := { s.wrote 14 high with prefixes := ⟨s.pc + 2, high⟩ :: s.prefixes }
      let back : Int := (s.reg 14 - (s.pc + 2)).toInt
      let base : Int := if note ∈ s.prefixes then s.pc.toNat + 2 + back else (s.reg 14).toNat
      let bl : Int := base + 2 * i11.toNat
      let blx : Int := base + 4 * i10.toNat
      exec (.tBlPrefix i11) s = .next noted ∧
      exec (.tBlSuffix i11) s = (if 0 ≤ bl ∧ bl < 4294967296 then
          .next (linked.jump (BitVec.ofInt 32 bl &&& 0xFFFFFFFE)) else .refused .addressWrap) ∧
      exec (.tBlxSuffix i10) s = (if 0 ≤ blx ∧ blx < 4294967296 then
          .next ({ linked with cpsr := Psr.setT s.cpsr false }.jump (BitVec.ofInt 32 blx &&& 0xFFFFFFFC))
        else .refused .addressWrap) ∧
      (∀ low : BitVec 11, s.pc.toNat + 2 < 4294967296 →
        let pair : Int := s.pc.toNat + 4 + 4096 * i11.toInt + 2 * low.toNat
        let exchange : Int := s.pc.toNat + 4 + 4096 * i11.toInt + 4 * i10.toNat
        (if 0 ≤ pair ∧ pair < 4294967296 then
          ∃ t, exec (.tBlSuffix low) noted = .next t ∧ t.pc = BitVec.ofInt 32 pair &&& 0xFFFFFFFE ∧
            t.reg 14 = (s.pc + 4) ||| 1 ∧ t.cpsr = s.cpsr ∧ t.prefixes = s.prefixes
        else exec (.tBlSuffix low) noted = .refused .addressWrap) ∧
        (if 0 ≤ exchange ∧ exchange < 4294967296 then
          ∃ t, exec (.tBlxSuffix i10) noted = .next t ∧ t.pc = BitVec.ofInt 32 exchange &&& 0xFFFFFFFC ∧
            t.reg 14 = (s.pc + 4) ||| 1 ∧ t.cpsr = Psr.setT s.cpsr false ∧ t.prefixes = s.prefixes
        else exec (.tBlxSuffix i10) noted = .refused .addressWrap)))

/-! ## CP15 and CP14 -/

/-- R127 to R129, R134, R136, R138: the CP15 reads in a privileged mode. Of a register with bits that the spec does not
state (U-T4, U-T5, U-T6), those bits are the next free word's (DESIGN CHOICE, entry 8). -/
def Obligations.Cp15ReadResult : Prop :=
  ∀ (c : Cond) (rd crm : Reg) (op2 : BitVec 3) (s : State),
    Cond.holds c s.cpsr = true → s.privileged = true → rd ≠ 15 →
    let free (v mask : Word) : State :=
      { s with freeCtr := s.freeCtr + 1 }.wrote rd ((v &&& mask) ||| (Config.freeWord s.freeCtr &&& ~~~mask))
    let p := s.pins
    let k := s.cp15
    let b (x : Bool) (n : Nat) : Word := BitVec.ofNat 32 (if x then 2 ^ n else 0)
    let side (e : Bist) (present : Bool) : Nat :=
      (if present then 32 * e.size.toNat else 0) + 16 * e.complete.toNat + 8 * e.fail.toNat + 4 * e.enable.toNat +
        2 * e.pause.toNat + e.running.toNat
    (op2 ≠ 2 → exec (.mrcIdCode c rd op2) s = .next (s.wrote rd 0x41259661)) ∧
    exec (.mrcTcmSize c rd) s = .next (s.wrote rd (BitVec.ofNat 32 (p.dtcmSize.toNat * 2 ^ 18 + p.itcmSize.toNat * 2 ^ 6) +
      b (p.dtcmSize = 0) 14 + b (p.itcmSize = 0) 2)) ∧
    exec (.mrcControl c rd) s =
      .next (free (b k.lt 15 + b k.v 13 + b k.i 12 + b k.b 7 + b k.w 3 + b k.d 2 + b k.a 1) 0x0000B08E) ∧
    exec (.mrcProcId c rd crm) s = .next (s.wrote rd k.procId) ∧
    exec (.mrcConfigControl c rd) s =
      .next (free (b k.iOrder 18 + b k.dOrder 17 + b k.ipbOff 16 + b k.fm 2 + b k.im 1) 0x00070006) ∧
    exec (.mrcBistControl c rd) s =
      .next (free (BitVec.ofNat 32 (65536 * side k.bistI p.bistI + side k.bistD p.bistD))
        (0x03FF03FF + (if p.bistI then 0 else 0xFC000000) + (if p.bistD then 0 else 0x0000FC00)))

/-- R130, R132, R133, R135, R137: the CP15 writes in a privileged mode that meet their preconditions. Clearing W and wait for
interrupt cause the words in the AHB write buffer to be written (R70): that this takes place after the instruction, a word a
step, is DESIGN CHOICE (entry 18). Of the Control Register the reserved bits written are ignored (U-T4, U-T5; DEDUCED, entry 40). An order
bit that becomes set over a buffer with data holds up the next access to that TCM (R37); that a bit set already starts no new
hold, and that clearing the bit keeps one, is DESIGN CHOICE (entry 46). A drain that needs an interface which never answers has
no next state (R357). -/
def Obligations.Cp15WriteResult : Prop :=
  ∀ (c : Cond) (rd crm : Reg) (s : State), Cond.holds c s.cpsr = true → s.privileged = true → rd ≠ 15 →
    let v := s.reg rd
    (((v.getLsbD 12 = true → s.pins.itcmSize ≠ 0 ∧ s.cp15.bistI.enable = false) ∧
        (v.getLsbD 12 = false → s.cp15.i = true → s.itcm.buf = []) ∧
        (v.getLsbD 2 = true → s.pins.dtcmSize ≠ 0 ∧ s.cp15.bistD.enable = false) ∧
        (v.getLsbD 2 = false → s.cp15.d = true → s.dtcm.buf = [])) →
      exec (.mcrControl c rd) s = .next
        { s with
          cp15 := { s.cp15 with lt := v.getLsbD 15, v := v.getLsbD 13, i := v.getLsbD 12, b := v.getLsbD 7,
                                w := v.getLsbD 3, d := v.getLsbD 2, a := v.getLsbD 1 }
          ahb := if v.getLsbD 3 then s.ahb else { s.ahb with due := s.ahb.bufWords }
          pc := s.nextPc }) ∧
    (v &&& 0xFFF8FFF9 = 0 → exec (.mcrConfigControl c rd) s = .next
      { s with
        cp15 := { s.cp15 with iOrder := v.getLsbD 18, dOrder := v.getLsbD 17, ipbOff := v.getLsbD 16, fm := v.getLsbD 2,
                              im := v.getLsbD 1 }
        itcm := { s.itcm with hold := s.itcm.hold || (v.getLsbD 18 && !s.cp15.iOrder && !s.itcm.buf.isEmpty) }
        dtcm := { s.dtcm with hold := s.dtcm.hold || (v.getLsbD 17 && !s.cp15.dOrder && !s.dtcm.buf.isEmpty) }
        pc := s.nextPc }) ∧
    exec (.mcrProcId c rd crm) s =
      .next { s with cp15 := { s.cp15 with procId := v, procIdWr := true }, pc := s.nextPc } ∧
    (∀ i ∈ [Instr.mcrWaitForInterrupt c rd, .mcrWaitForInterruptLegacy c rd],
      exec i s = .next { s with standby := true, ahb := { s.ahb with due := s.ahb.bufWords }, pc := s.nextPc }) ∧
    (let stuck := s.pins.itcmHung = true ∧ s.itcm.buf ≠ [] ∨ s.pins.dtcmHung = true ∧ s.dtcm.buf ≠ [] ∨
        s.pins.ahbHung = true ∧ s.ahb.buf ≠ []
    (stuck → exec (.mcrDrainWriteBuffer c rd) s = .fault .accessNeverCompletes) ∧
    (¬stuck → ∃ t, exec (.mcrDrainWriteBuffer c rd) s = .next t ∧ t.itcm.buf = [] ∧ t.dtcm.buf = [] ∧ t.ahb.buf = [] ∧
      SameMemory s t ∧ t.regs = s.regs ∧ t.cpsr = s.cpsr ∧ SameSystem s t ∧ WentOn s t))

/-- R124, R315: in User mode every MCR and MRC to p15 takes the Undefined Instruction exception; in a privileged mode R15 as
Rd, and every access that R123 does not list, stops (R125). -/
def Obligations.Cp15Access : Prop :=
  ∀ (c : Cond) (l : Bool) (rd crn crm : Reg) (op1 op2 op2' : BitVec 3) (s : State), Cond.holds c s.cpsr = true →
    (∀ i ∈ [Instr.mrcTcmSize c rd, .mrcIdCode c rd op2, .mrcControl c rd, .mcrControl c rd, .mcrWaitForInterrupt c rd,
        .mcrWaitForInterruptLegacy c rd, .mcrDrainWriteBuffer c rd, .mrcProcId c rd crm, .mcrProcId c rd crm,
        .mrcConfigControl c rd, .mcrConfigControl c rd, .mrcBistControl c rd, .mcrBistControl c rd, .mrcIBistAddress c rd,
        .mcrIBistAddress c rd, .mrcIBistGeneral c rd, .mcrIBistGeneral c rd, .mrcDBistAddress c rd, .mcrDBistAddress c rd,
        .mrcDBistGeneral c rd, .mcrDBistGeneral c rd],
      (s.privileged = false → exec i s = .next (s.raise .undefined)) ∧
      (s.privileged = true → rd = 15 → exec i s = .refused .r15Operand)) ∧
    exec (.p15Other c l op1 crn rd op2' crm) s =
      if s.privileged then .refused .cp15Unlisted else .next (s.raise .undefined)

/-- R140 to R143, R39: the BIST address and general registers of both sides in a privileged mode. With the pause bit clear
the start address and the pattern are written, with it set a peek or a poke is made, on an engine that is present and enabled
over a disabled TCM. The address of a failure reads with one bit above the range of addresses set where xTCMERROR caused it
(R140; which bit is open). The usable range is the physical size of the TCM, an xTCMERROR on a peek has no effect, and a peek or
poke that a hung TCM has not answered waits, holds up the next one and, if it is a peek, the read of its data, which then have
no next state (R143, R348, R357): DESIGN CHOICE, entries 10 and 31. What a peek or poke does where R348 does not describe it, and
what a read gives before there is a failure, is free (DESIGN CHOICE, entry 8). -/
def Obligations.BistRegisterResult : Prop :=
  ∀ (c : Cond) (rd : Reg) (s : State), Cond.holds c s.cpsr = true → s.privileged = true → rd ≠ 15 →
    ∀ x ∈ [(Side.itcm, Instr.mrcIBistAddress c rd, Instr.mcrIBistAddress c rd, Instr.mrcIBistGeneral c rd,
          Instr.mcrIBistGeneral c rd),
        (.dtcm, .mrcDBistAddress c rd, .mcrDBistAddress c rd, .mrcDBistGeneral c rd, .mcrDBistGeneral c rd)],
      let e := s.bist x.1
      let size := tcmBytes (s.pins.tcmSize x.1)
      let range : Word := BitVec.ofNat 32 (size - 1)
      let words : Word := 0xFFFFFFFC &&& range
      let a : Word := s.reg rd &&& words
      let target : Word := e.addrReg &&& range
      let flag := bistErrorFlag s x.1
      let hung := s.pins.tcmHung x.1
      let at_ (y : State) : State := { y with pc := s.nextPc }
      let next : State := { s with freeCtr := s.freeCtr + 1 }
      let free := Config.freeWord s.freeCtr
      let described := s.pins.bistPresent x.1 = true ∧ e.enable = true ∧ s.cp15.tcmOn x.1 = false ∧ size ≠ 0
      let peeked (d : Word) (waiting : Option BistAccess) : State :=
        at_ (next.setBist x.1 { e with addrReg := a, failValid := false, peekData := d, access := waiting })
      let noted (waiting : Option BistAccess) : State :=
        next.setBist x.1 { e with dataReg := s.reg rd, failValid := false, access := waiting }
      let poked : State :=
        if hung then at_ (noted (some (.poke target (s.reg rd))))
        else at_ ((noted none).setTcm x.1 ((s.tcm x.1).commit (target.toNat / 4) 0b1111 (s.reg rd)))
      (tcmSizeLegal (s.pins.tcmSize x.1) = true → ∃ n, 2 ≤ n ∧ n < 32 ∧ size ≤ 2 ^ n ∧ flag = BitVec.ofNat 32 (2 ^ n)) ∧
      (e.failValid = true →
        exec x.2.1 s = .next (s.wrote rd ((e.failAddr &&& words) ||| (if e.failErr then flag else 0)))) ∧
      (e.failValid = false → exec x.2.1 s = .next (next.wrote rd (free &&& (words ||| flag)))) ∧
      (e.pause = false → exec x.2.2.1 s = .next (at_ (s.setBist x.1 { e with addrReg := a }))) ∧
      (e.pause = false → exec x.2.2.2.2 s = .next (at_ (s.setBist x.1 { e with dataReg := s.reg rd }))) ∧
      (e.pause = false → e.failValid = true → exec x.2.2.2.1 s = .next (s.wrote rd e.failData)) ∧
      (e.pause = false → e.failValid = false → exec x.2.2.2.1 s = .next (next.wrote rd free)) ∧
      (e.pause = true → exec x.2.2.2.1 s =
        match e.access with
        | some (.peek _) => .fault .accessNeverCompletes
        | _ => .next (s.wrote rd e.peekData)) ∧
      (e.pause = true → e.access ≠ none →
        exec x.2.2.1 s = .fault .accessNeverCompletes ∧ exec x.2.2.2.2 s = .fault .accessNeverCompletes) ∧
      (e.pause = true → e.access = none →
        (described →
          exec x.2.2.1 s = .next (if hung then peeked e.peekData (some (.peek a))
            else peeked ((s.tcm x.1).mem.readWord (a.toNat / 4)) none) ∧
          exec x.2.2.2.2 s = .next poked) ∧
        (¬described →
          exec x.2.2.1 s = .next (peeked free none) ∧
          exec x.2.2.2.2 s = .next (if size ≠ 0 ∧ Config.freeBool s.freeCtr = true then poked else at_ (noted none))))

/-- R38, R139, R347: a write of the BIST Control Register with neither engine running and the rules of use met: sizes, enables
and pause bits are stored, an enable clears the functional enable of its TCM, a start strobe starts an idle engine at the first
word of pass 1 with its flags cleared and lets a paused one go on from where it stands (R349), and nothing else changes. That it
goes on there with a new size too, and after the enable was cleared and set again over a pause point that is kept, is DESIGN
CHOICE (entry 30). (Clearing the enable of a paused test is left out here: what becomes of its pause point is free, entry 30.) -/
def Obligations.BistControlWrite : Prop :=
  ∀ (c : Cond) (rd : Reg) (s : State), Cond.holds c s.cpsr = true → s.privileged = true → rd ≠ 15 →
    let field (side : Side) : BitVec 16 := match side with
      | .itcm => (s.reg rd).extractLsb' 16 16 | .dtcm => (s.reg rd).extractLsb' 0 16
    let size (side : Side) : BitVec 11 := (field side).extractLsb' 5 11
    let enable (side : Side) : Bool := (field side).getLsbD 2
    let pause (side : Side) : Bool := (field side).getLsbD 1
    let strobe (side : Side) : Bool := (field side).getLsbD 0
    s.reg rd &&& 0xFC18FC18 = 0 →
    (∀ side, (s.bist side).running = false ∧ (enable side = true ∨ (s.bist side).cursor = none) ∧
      (enable side = true → s.cp15.tcmOn side = true → (s.tcm side).buf = []) ∧
      (strobe side = true → enable side = true ∧ s.pins.bistPresent side = true ∧ 1 ≤ (size side).toNat ∧
        (size side).toNat ≤ 24 ∧
        (s.bist side).addrReg.toNat + 2 ^ ((size side).toNat + 2) ≤ tcmBytes (s.pins.tcmSize side))) →
      ∃ t, exec (.mcrBistControl c rd) s = .next t ∧
        (∀ side, (t.bist side) =
            (let e := { s.bist side with size := size side, enable := enable side, pause := pause side }
            if strobe side then
              if e.cursor = none then
                { e with running := true, auto := pause side, complete := false, fail := false, failValid := false
                         cursor := some { pass := .one, addr := e.addrReg.toNat } }
              else { e with running := true, auto := pause side }
            else e) ∧
          t.cp15.tcmOn side = (s.cp15.tcmOn side && !enable side)) ∧
        t = { s with cp15 := { s.cp15 with bistI := t.cp15.bistI, bistD := t.cp15.bistD, i := t.cp15.i, d := t.cp15.d }
                     pc := s.nextPc }

/-- R162 to R168: the five CP14 accesses in a privileged mode. That a read with Rd = R15 sets the flags from bits [31:28],
as R158 says of MRC, holds for CP14 too is DEDUCED (entry 26); bits [27:2] of the status register are free (DESIGN CHOICE, entry
8). That a word written while W is set overwrites the one that nobody has read is DESIGN CHOICE (entry 48: R165 and N-61-6
differ). In User mode, and for every other access, the machine stops. -/
def Obligations.Cp14Result : Prop :=
  ∀ (c : Cond) (l : Bool) (rd crn crm : Reg) (op1 op2 : BitVec 3) (s : State), Cond.holds c s.cpsr = true →
    let read (t : State) (v : Word) : Result :=
      .next (if rd = 15 then t.flagged (Psr.setNzcv s.cpsr (v.getLsbD 31) (v.getLsbD 30) (v.getLsbD 29) (v.getLsbD 28))
        else t.wrote rd v)
    (s.privileged = true →
      exec (.mrcCommsStatus c rd) s = read { s with freeCtr := s.freeCtr + 1 }
        (Config.iceVersion ++ (Config.freeWord s.freeCtr).extractLsb' 2 26 ++ BitVec.ofBool s.dcc.w ++
          BitVec.ofBool s.dcc.r) ∧
      exec (.mrcCommsData c rd) s = read { s with dcc := { s.dcc with r := false } } s.dcc.readData ∧
      exec (.mrcMonitorStatus c rd) s = read s (if s.dcc.dbgAbt then 1 else 0) ∧
      exec (.mcrCommsData c rd) s = (if rd = 15 then .refused .r15Operand
        else .next { s with dcc := { s.dcc with writeData := s.reg rd, w := true }, pc := s.nextPc }) ∧
      exec (.mcrMonitorStatus c rd) s = (if rd = 15 then .refused .r15Operand
        else .next { s with dcc := { s.dcc with dbgAbt := (s.reg rd).getLsbD 0 }, pc := s.nextPc })) ∧
    (s.privileged = false → ∀ i ∈ [Instr.mrcCommsStatus c rd, .mrcCommsData c rd, .mrcMonitorStatus c rd,
      .mcrCommsData c rd, .mcrMonitorStatus c rd], exec i s = .refused .cp14User) ∧
    exec (.p14Other c l op1 crn rd op2 crm) s = .refused .cp14Unlisted

/-! ## External coprocessors -/

/-- R145, R146, R148, R149, R151, R154, R157 to R161: the handshake of every coprocessor instruction, in both forms, new or
kept waiting. The coprocessor of its number receives the instruction word. ABSENT, and a number that no coprocessor answers to,
takes the Undefined Instruction exception; WAIT leaves the instruction in Execute; after any number of cycles with GO, LAST
completes it, and what the register transfers then do follows. The lists of cycles to come, that an exhausted list is ABSENT,
that a form which is UNPREDICTABLE is like any other until a coprocessor accepts it, and that MRC takes the word of the last
cycle and MRRC those of the last two, are the model's (DESIGN CHOICE, entry 27; DEDUCED, entry 45). -/
def Obligations.CoprocessorHandshake : Prop :=
  ∀ (c : Cond) (o3 : BitVec 3) (o4 : BitVec 4) (crn rn rd cp crm : Reg) (op2 : BitVec 3) (n : Bool) (a : CpIndexing)
    (imm : BitVec 8) (rs : List CpReply) (moved ws : List Word) (w w0 : Word) (s r : State),
    Cond.holds c s.cpsr = true → externalCp cp = true →
    let taken (r : State) : Result := .next ((r.answered cp rs).raise .undefined)
    let waits (i : Instr) (ws : List Word) : State → Result := fun r =>
      .next (r.setWaiting (some { instr := Code.word (encode i), moved := ws }))
    let words := ws.map CpReply.go
    let after := r.answered cp rs
    (∀ i ∈ [Instr.cdp c o4 crn rd cp op2 crm, .cdp2 o4 crn rd cp op2 crm, .mcr c o3 crn rd cp op2 crm,
        .mcr2 o3 crn rd cp op2 crm, .mrc c o3 crn rd cp op2 crm, .mrc2 o3 crn rd cp op2 crm, .mcrr c rn rd cp o4 crm,
        .mrrc c rn rd cp o4 crm, .ldc c a n rn rd cp imm, .ldc2 a n rn rd cp imm, .stc c a n rn rd cp imm,
        .stc2 a n rn rd cp imm], s.offers cp i moved r →
      (s.cpReplies cp = [] → exec i s = .next ((r.setWaiting none).raise .undefined)) ∧
      (s.cpReplies cp = .absent :: rs → exec i s = taken r) ∧
      (s.cpReplies cp = .wait :: rs → exec i s = waits i moved (r.setReplies cp rs)) ∧
      (s.cpReplies cp = .waitForever :: rs → exec i s = waits i moved r)) ∧
    (∀ x ∈ [(Instr.cdp c o4 crn rd cp op2 crm, True), (.cdp2 o4 crn rd cp op2 crm, True),
        (.mcr c o3 crn rd cp op2 crm, rd ≠ 15), (.mcr2 o3 crn rd cp op2 crm, rd ≠ 15),
        (.mrc c o3 crn rd cp op2 crm, True), (.mrc2 o3 crn rd cp op2 crm, True),
        (.mcrr c rn rd cp o4 crm, rn ≠ 15 ∧ rd ≠ 15), (.mrrc c rn rd cp o4 crm, rn ≠ 15 ∧ rd ≠ 15 ∧ rd ≠ rn)],
      x.2 → s.offers cp x.1 moved r →
      (s.cpReplies cp = words ++ .absent :: rs → exec x.1 s = taken r) ∧
      (s.cpReplies cp = words ++ .wait :: rs → exec x.1 s = waits x.1 (moved ++ ws) (r.setReplies cp rs))) ∧
    (s.cpReplies cp = words ++ .last w :: rs →
      (∀ i ∈ [Instr.cdp c o4 crn rd cp op2 crm, .cdp2 o4 crn rd cp op2 crm], s.offers cp i moved r →
        exec i s = .next { after with pc := s.nextPc }) ∧
      (rd ≠ 15 → ∀ i ∈ [Instr.mcr c o3 crn rd cp op2 crm, .mcr2 o3 crn rd cp op2 crm], s.offers cp i moved r →
        exec i s = .next { after.sendWords cp [s.reg rd] with pc := s.nextPc }) ∧
      (rn ≠ 15 → rd ≠ 15 → s.offers cp (.mcrr c rn rd cp o4 crm) moved r →
        exec (.mcrr c rn rd cp o4 crm) s = .next { after.sendWords cp [s.reg rd, s.reg rn] with pc := s.nextPc }) ∧
      (∀ i ∈ [Instr.mrc c o3 crn rd cp op2 crm, .mrc2 o3 crn rd cp op2 crm], s.offers cp i moved r → exec i s = .next
        (if rd = 15 then after.flagged
            (Psr.setNzcv s.cpsr (w.getLsbD 31) (w.getLsbD 30) (w.getLsbD 29) (w.getLsbD 28))
          else after.wrote rd w)) ∧
      (rn ≠ 15 → rd ≠ 15 → rd ≠ rn → s.offers cp (.mrrc c rn rd cp o4 crm) moved r →
        ((moved ++ ws).getLast? = some w0 → exec (.mrrc c rn rd cp o4 crm) s =
          .next { after with regs := s.withRegs2 rd w0 rn w, pc := s.nextPc }) ∧
        (moved ++ ws = [] → exec (.mrrc c rn rd cp o4 crm) s =
          .next { after with regs := s.withRegs2 rd (Config.freeWord s.freeCtr) rn w, freeCtr := s.freeCtr + 1
                             pc := s.nextPc })))

/-- R155, R156, R161: LDC and STC that a coprocessor accepts and that complete, new or kept waiting after some words, while no
other agent acts between the words: one word for each cycle with GO and for the one with LAST, 16 at most, in ascending order;
the coprocessor receives the words read, or memory those it drives; the base is written back as the form says. WAIT after some
words leaves the instruction in Execute with these moved. Where the cycles come from is the model's (DESIGN CHOICE, entry 27);
a buffered word answered with ERROR leaves its bytes as they were (R71; DEDUCED, entry 20). -/
def Obligations.CoprocessorTransferResult : Prop :=
  ∀ (c : Cond) (a : CpIndexing) (n : Bool) (rn crd cp : Reg) (imm : BitVec 8) (moved ws : List Word) (w : Word)
    (rs : List CpReply) (s r : State),
    Cond.holds c s.cpsr = true → externalCp cp = true → s.between = [] →
    let m := cpAddress a (s.reg rn) imm
    let addresses (k : Nat) := wordAddresses (m.address + BitVec.ofNat 32 (4 * moved.length)) k
    let words := ws.map CpReply.go
    let ended (all : List Word) := s.cpReplies cp = words ++ .last w :: rs ∧ all = ws ++ [w] ∧ moved.length + ws.length < 16 ∨
      s.cpReplies cp = words ++ rs ∧ all = ws ∧ ws ≠ [] ∧ moved.length + ws.length = 16
    let paused := s.cpReplies cp = words ++ .wait :: rs ∧ moved.length + ws.length < 16
    (m.newBase = none ∨ rn ≠ 15) →
      (∀ i ∈ [Instr.ldc c a n rn crd cp imm, .ldc2 a n rn crd cp imm], s.offers cp i moved r → ∀ all,
        (∀ x ∈ addresses all.length, s.readable false .word x) →
        let given := (r.sendWords cp ((addresses all.length).map (s.loaded .word))).setReplies cp rs
        (ended all → ∃ t, exec i s = .next t ∧ t.cp = (given.setWaiting none).cp ∧ t.regs = s.withBase rn m.newBase ∧
          t.cpsr = s.cpsr ∧ WentOn s t ∧ SameSystem s { t with cp := s.cp } ∧ SameMemory s t) ∧
        (paused → all = ws → ∃ t, exec i s = .next t ∧ t.pc = s.pc ∧ t.regs = s.regs ∧ t.cpsr = s.cpsr ∧
          t.cp = (given.setWaiting (some { instr := Code.word (encode i)
                                           moved := moved ++ (addresses ws.length).map (s.loaded .word) })).cp ∧
          SameSystem s { t with cp := s.cp } ∧ SameMemory s t)) ∧
      (s.memoryInForm → ∀ i ∈ [Instr.stc c a n rn crd cp imm, .stc2 a n rn crd cp imm], s.offers cp i moved r → ∀ all,
        (∀ x ∈ addresses all.length, s.writable false false .word x) →
        let stored (t : State) : Prop := ∀ p, t.byteAt p = s.storedWords ((addresses all.length).zip all) p
        (ended all → ∃ t, exec i s = .next t ∧ t.cp = (r.answered cp rs).cp ∧ t.regs = s.withBase rn m.newBase ∧
          t.cpsr = s.cpsr ∧ WentOn s t ∧ SameSystem s { t with cp := s.cp } ∧ stored t) ∧
        (paused → all = ws → ∃ t, exec i s = .next t ∧ t.pc = s.pc ∧ t.regs = s.regs ∧ t.cpsr = s.cpsr ∧
          t.cp = ((r.setReplies cp rs).setWaiting (some { instr := Code.word (encode i), moved := moved ++ ws })).cp ∧
          SameSystem s { t with cp := s.cp } ∧ stored t))

/-- R113, R116, R125, R126, R168, D14, D15, U-G14, U-T6, R68, R130: the encodings and the forms of coprocessor instructions
of which the spec makes no claim stop: the forms of U-G14 once a coprocessor accepts them (DEDUCED, entry 45), the writes of the
Control Register that R130 and R68 exclude, on either side. -/
def Obligations.ClaimlessFormsStop : Prop :=
  ∀ (c : Cond) (x y z u b7 b6 b5 b4 : Bool) (b28 : BitVec 28) (b21 : BitVec 21) (b13 : BitVec 13) (b12 : BitVec 12)
    (b10 : BitVec 10) (lo : BitVec 8) (o3 op2 : BitVec 3) (o4 : BitVec 4) (rn rd rs rm cp : Reg) (a : CpIndexing)
    (moved : List Word) (reply : CpReply) (word : Word) (more : List CpReply) (s r : State),
    (∀ i ∈ [Instr.unallocUncondLsm b21, .unallocUncondMcrr b21, .unallocUncond b28, .unallocThumbMisc b12,
      .unallocBlxSuffix b10], exec i s = .refused .unallocated) ∧
    (externalCp cp = false → ∀ i ∈ [Instr.cdp2 o4 rn rd cp op2 rm, .ldc2 a x rn rd cp lo, .stc2 a x rn rd cp lo,
      .mcr2 o3 rn rd cp op2 rm, .mrc2 o3 rn rd cp op2 rm], exec i s = .refused .internalCoprocessor) ∧
    (Cond.holds c s.cpsr = true →
      (∀ i ∈ [Instr.unallocCp c x rn rd cp lo, .unallocArith c x y rn rd rs rm, .unallocExt c x y z u rn rd rs rm,
        .unallocMisc c x y rn rd rs b7 b6 b5 b4 rm], exec i s = .refused .unallocated) ∧
      (∀ i ∈ [Instr.p15Transfer c b13 lo, .p15Cdp c o4 rn rd op2 rm, .p14Transfer c b13 lo, .p14Cdp c o4 rn rd op2 rm],
        exec i s = .refused .internalCoprocessor) ∧
      (externalCp cp = true → s.cpReplies cp = reply :: more → (reply = .go word ∨ reply = .last word) →
        (rd = 15 → ∀ i ∈ [Instr.mcr c o3 rn rd cp op2 rm, .mcr2 o3 rn rd cp op2 rm], s.offers cp i moved r →
          exec i s = .refused .r15Operand) ∧
        (rn = 15 ∨ rd = 15 → ∀ i ∈ [Instr.mcrr c rn rd cp o4 rm, .mrrc c rn rd cp o4 rm], s.offers cp i moved r →
          exec i s = .refused .r15Operand) ∧
        (rn ≠ 15 → rd = rn → s.offers cp (.mrrc c rn rd cp o4 rm) moved r →
          exec (.mrrc c rn rd cp o4 rm) s = .refused .registerClash) ∧
        ((cpAddress a (s.reg 15) lo).newBase ≠ none → ∀ i ∈ [Instr.ldc c a x 15 rd cp lo, .ldc2 a x 15 rd cp lo,
          .stc c a x 15 rd cp lo, .stc2 a x 15 rd cp lo], s.offers cp i moved r → exec i s = .refused .r15Operand)) ∧
      (s.privileged = true → rd ≠ 15 →
        let v := s.reg rd
        (v &&& 0xFFF8FFF9 ≠ 0 → exec (.mcrConfigControl c rd) s = .refused .cp15ReservedBits) ∧
        (v &&& 0xFC18FC18 ≠ 0 → exec (.mcrBistControl c rd) s = .refused .cp15ReservedBits) ∧
        (v.getLsbD 12 = true → s.pins.itcmSize = 0 → exec (.mcrControl c rd) s = .refused .tcmAbsent) ∧
        (v.getLsbD 12 = true → s.pins.itcmSize ≠ 0 → s.cp15.bistI.enable = true →
          exec (.mcrControl c rd) s = .refused .bistRules) ∧
        (v.getLsbD 12 = false → s.cp15.i = true → s.itcm.buf ≠ [] →
          exec (.mcrControl c rd) s = .refused .tcmBufferNotEmpty) ∧
        ((v.getLsbD 12 = true ∧ s.pins.itcmSize ≠ 0 ∧ s.cp15.bistI.enable = false ∨
            v.getLsbD 12 = false ∧ (s.cp15.i = false ∨ s.itcm.buf = [])) →
          (v.getLsbD 2 = true → s.pins.dtcmSize = 0 → exec (.mcrControl c rd) s = .refused .tcmAbsent) ∧
          (v.getLsbD 2 = true → s.pins.dtcmSize ≠ 0 → s.cp15.bistD.enable = true →
            exec (.mcrControl c rd) s = .refused .bistRules) ∧
          (v.getLsbD 2 = false → s.cp15.d = true → s.dtcm.buf ≠ [] →
            exec (.mcrControl c rd) s = .refused .tcmBufferNotEmpty))))

/-! ## Steps -/

/-- R11, R100: where nothing else can happen, a step runs the instruction that the fetched code decodes to, or the one that a
coprocessor keeps waiting (R148); an instruction that goes on waiting has not ended, and still follows what it followed, any
other ends, and counts for a watchpoint (R333). Where the coprocessor busy-waits for ever and nothing more is to happen, there is
no next state (R357). A fetch that was answered with an error takes the Prefetch Abort (R317). A banked register right after a
user-bank transfer is UNPREDICTABLE (U-G11; which accesses count, and that the condition is looked at first, is DEDUCED, entry
28). What the step adds around exec: the clock before it, which only moves the ETM registers on (R340, R366; the moment is
DESIGN CHOICE, entry 42), writes buffered words out and ends pulses, and the output pins. Of these, when DBGINSTREXEC, CPPASS,
CHSDE and CHSEX show what, for an instruction that fails its condition or is kept waiting in particular, is DEDUCED (entry
41). -/
def Obligations.StepRunsDecoded : Prop :=
  (∀ (i : Instr) (s u : State), s.quiet →
    ((∃ f s', s.cp.waiting = none ∧ fetchNext s.atFetch = .ok (f, s') ∧ f.err = false ∧ breakpointAnswer f s' = .quiet ∧
        f.raw = false ∧ decode f.code = i ∧
        u = { s' with out := { s'.out with ia := f.addr, instr := Code.word f.code, tbit := Code.isThumb f.code } }) ∨
      (∃ p, s.cp.waiting = some p ∧ (s.cpReplies (cpNumber p.instr)).head? ≠ some .waitForever ∧
        decode (.arm p.instr) = i ∧ u = s.atFetch)) →
      (bankHazard i u = true → step s = .refused .bankedAfterUserTransfer) ∧
      (bankHazard i u = false → step s =
        match exec i { u with userXfer := false } with
        | .next t =>
          let shown := { t with out := { t.out with
            instrValid := true
            instrExec := condPasses i u && t.cp.waiting.isNone
            cpPass := condPasses i u && Code.isCoprocessor (encode i)
            chsDecode := (t.executed i u).out.chsDecode
            chsExecute := (t.executed i u).out.chsExecute } }
          .next (if t.cp.waiting.isSome then { shown with userXfer := u.userXfer } else endInstruction shown)
        | r => r)) ∧
  (∀ (p : CpWait) (s : State), s.quiet → s.cp.waiting = some p →
    (s.cpReplies (cpNumber p.instr)).head? = some .waitForever → step s = .fault .accessNeverCompletes) ∧
  (∀ (f : Fetched) (s s' : State), s.quiet → s.cp.waiting = none → s.dbg.watch = .none →
    fetchNext s.atFetch = .ok (f, s') → f.err = true →
      ∃ t, step s = .next t ∧ t.regs = s'.regs.set (physIndex .abt 14) (s'.pc + 4) ∧ t.spsr = s'.spsr.set 3 s'.cpsr ∧
        t.cpsr = Exc.newCpsr .prefetchAbort s'.cpsr ∧ t.pc = (if s'.cp15.v then 0xFFFF000C else 0xC)) ∧
  (∀ s : State,
    let t := s.atFetch
    t.regs = s.regs ∧ t.pc = s.pc ∧ t.cpsr = s.cpsr ∧ t.fetch = s.fetch ∧ t.freeCtr = s.freeCtr ∧ SameMemory s t ∧
    SameSystem s { t with standby := s.standby, cp15 := { t.cp15 with procIdWr := s.cp15.procIdWr }, etm := s.etm
                          fiqServed := s.fiqServed, irqServed := s.irqServed } ∧
    t.etm = if s.pins.etmen then
        { bigend := s.cp15.b, hivecs := s.cp15.v, dbgack := s.pins.dbgen && s.dbg.inDebug, pins := s.out
          procId := s.cp15.procId, procIdWr := s.cp15.procIdWr }
      else s.etm)

/-- R52, R55, R64, R72: a nonsequential fetch gives the instruction at the pc: the word of the ITCM or of the AHB, the
halfword of it in Thumb state by the byte order, with the error answer of that address and the marks of the breakpoint logic
(R333). Nothing a program can see changes. From an interface that never answers there is no instruction (R357). -/
def Obligations.FetchReadsMemory : Prop :=
  ∀ (s : State), s.fetch.nonseq = true →
    let a := s.fetchAddr
    let code (w : Word) : Code :=
      if s.thumb then .thumb (w.extractLsb' (if a.getLsbD 1 = s.cp15.b then 0 else 16) 16) else .arm w
    let fetched (w : Word) (err : Bool) : Prop := ∃ f s', fetchNext s = .ok (f, s') ∧ f.addr = a ∧ f.code = code w ∧
      f.err = err ∧ f.bkpt = (s.pins.dbgen && s.pins.dbgiebkpt) ∧ f.hit0 = s.hit0 (s.fetchCycle f) ∧
      f.hit1 = s.hit1 (s.fetchCycle f) ∧ s'.regs = s.regs ∧ s'.pc = s.pc ∧ s'.cpsr = s.cpsr ∧
      s'.fetch.nonseq = false ∧ SameSystem s s' ∧ SameMemory s s'
    if a.toNat < 2 ^ 26 ∧ s.cp15.i = true then
      s.tcmProblem .itcm = none →
        (s.pins.itcmHung = true → fetchNext s = .error (.fault .accessNeverCompletes)) ∧
        (s.pins.itcmHung = false → s.itcm.buf = [] →
          fetched (s.itcm.mem.readWord (s.tcmWord .itcm a)) (s.itcm.err.contains (s.tcmWord .itcm a)))
    else
      (s.pins.ahbHung = true → fetchNext s = .error (.fault .accessNeverCompletes)) ∧
      (s.pins.ahbHung = false →
        fetched (s.ahb.drain.mem.readWord (a.toNat / 4)) (s.ahb.error .fetch (!s.privileged) (a &&& 0xFFFFFFFC)))

/-- R132, R321, R323, R324, R341, R342: a debug request comes before an interrupt, FIQ before IRQ, and each is taken where its
mask bit is clear; standby lasts while no line wakes the core; the ETM stalls a core that is awake, between instructions only. An
interrupt abandons an instruction that a coprocessor keeps waiting (R151); at a debug request alone it goes on, because the core
enters debug state when it is completed (R333); with an interrupt as well it is abandoned and debug state is entered in its place
(DEDUCED, entry 27). That a debug request comes before standby and the stall is DEDUCED (entry 36); that one right after a watched access is obeyed at once is DESIGN CHOICE (entry 33); that FIFOFULL holds off
the taking of an interrupt, and the wake, where its bit of the Configuration Control Register is set, is DESIGN CHOICE (entry 35),
as is the mark that the handler was entered by that request. -/
def Obligations.InterruptsAreTaken : Prop :=
  ∀ (s : State), s.env = [] → s.dbg.inDebug = false →
    let awake := s.atFetch
    let t : State := { awake.abandonCp with userXfer := false }
    let fiq := !s.pins.nfiq && !(s.pins.fifofull && s.cp15.fm)
    let irq := !s.pins.nirq && !(s.pins.fifofull && s.cp15.im)
    let taken := fiq = true ∧ Psr.f s.cpsr = false ∨ irq = true ∧ Psr.i s.cpsr = false
    (s.debugRequest = true → s.dbg.monitor = false →
      (s.cp.waiting = none ∨ taken → ∃ u, step s = .next u ∧ u.dbg.inDebug = true ∧ u.pc = s.pc ∧
        u.regs = s.regs ∧ u.cpsr = s.cpsr ∧ u.spsr = s.spsr ∧ u.standby = false ∧ u.dbg.fromThumb = s.thumb ∧
        u.cp = s.abandonCp.cp ∧ SameMemory s u) ∧
      (s.cp.waiting ≠ none → ¬taken → step s = nextInstruction s.begun)) ∧
    (s.debugRequest = false → s.dbg.watch = .none →
      (s.standby = true → fiq = false → irq = false → step s = .next s.begun) ∧
      ((s.standby = false ∨ fiq = true ∨ irq = true) → s.etmStall = true → s.cp.waiting = none → step s = .next awake) ∧
      (s.etmStall = false ∨ s.cp.waiting ≠ none →
        (fiq = true → Psr.f s.cpsr = false → step s = .next ({ t with fiqServed := true }.raise .fiq)) ∧
        ((fiq = false ∨ Psr.f s.cpsr = true) → irq = true → Psr.i s.cpsr = false →
          step s = .next ({ t with irqServed := true }.raise .irq))))

/-! ## Whole-machine rules -/

/-- R22, R23, R212, R327: what User mode cannot do: an instruction that completes there leaves the mode, the I and F bits,
every SPSR, CP15 and the registers of the other modes as they were, or takes one of the four exceptions an instruction can
take, which writes nothing of these but the CPSR, one R14 and one SPSR. -/
def Obligations.UserModeIsConfined : Prop :=
  ∀ (i : Instr) (s t : State), s.mode = .usr → exec i s = .next t →
    (t.mode = .usr ∧ Psr.i t.cpsr = Psr.i s.cpsr ∧ Psr.f t.cpsr = Psr.f s.cpsr ∧ t.spsr = s.spsr ∧ t.cp15 = s.cp15 ∧
      t.dcc = s.dcc ∧ ∀ k : Fin 30, privilegedReg k = true → t.regs[k] = s.regs[k]) ∨
    (∃ x ∈ [Exc.undefined, .swi, .prefetchAbort, .dataAbort], ∃ m ∈ x.mode.spsrIndex,
      t.cpsr = Exc.newCpsr x s.cpsr ∧ t.spsr = s.spsr.set m s.cpsr ∧ t.pc = s.vectorBase + x.offset ∧
      t.cp15 = s.cp15 ∧
      ∀ k : Fin 30, privilegedReg k = true → k ≠ physIndex x.mode 14 → t.regs[k] = s.regs[k])

/-- R351, R352: what the spec says of the state after reset, and that every invariant stated below holds in it. Register
values and pin levels that the spec does not give are the model's (entries 1 to 4 and 6) and are not stated. -/
def Obligations.ResetState : Prop :=
  let s := State.reset
  Psr.m s.cpsr = 0b10011 ∧ Psr.t s.cpsr = false ∧ Psr.i s.cpsr = true ∧ Psr.f s.cpsr = true ∧ Psr.reserved s.cpsr = 0 ∧
  s.pc = (if s.pins.vinithi then 0xFFFF0000 else 0) ∧
  s.cp15.lt = false ∧ s.cp15.v = s.pins.vinithi ∧ s.cp15.i = s.pins.initram ∧ s.cp15.b = false ∧ s.cp15.w = false ∧
  s.cp15.d = s.pins.initram ∧ s.cp15.a = false ∧ s.cp15.iOrder = false ∧ s.cp15.dOrder = false ∧ s.cp15.ipbOff = false ∧
  s.cp15.fm = true ∧ s.cp15.im = false ∧
  (∀ side, let b := s.bist side
    b.enable = false ∧ b.pause = false ∧ b.running = false ∧ b.complete = false ∧ b.fail = false) ∧
  s.itcm.buf = [] ∧ s.dtcm.buf = [] ∧ s.ahb.buf = [] ∧ s.fetch.ipb = [] ∧ s.fetch.pipe = [] ∧ s.standby = false ∧
  s.dbg.inDebug = false ∧
  s.memoryInForm ∧ s.statusLegal ∧ s.streamLegal ∧ s.buffersFit ∧ s.bistApart

/-- R50, R66, R70: every step keeps the three memories in canonical form. -/
def Obligations.MemoryStaysInForm : Prop :=
  ∀ s t : State, s.memoryInForm → step s = .next t → t.memoryInForm

/-- R23, R26, R312, R325: every step keeps the mode legal and the reserved bits of the status registers zero. -/
def Obligations.StatusStaysLegal : Prop :=
  ∀ s t : State, s.statusLegal → step s = .next t → t.statusLegal

/-- R24, R76, R98: every step keeps the pc aligned for the instruction set state, and the instructions that wait in the
pipeline those of that state. -/
def Obligations.PcStaysAligned : Prop :=
  ∀ s t : State, s.streamLegal → step s = .next t → t.streamLegal

/-- R66, R70, R72, R76: every step keeps the write buffers, the prefetch buffer and the pipeline within their sizes. -/
def Obligations.BuffersStayFit : Prop :=
  ∀ s t : State, s.buffersFit → step s = .next t → t.buffersFit

/-- R38, R130, R344: every step keeps a TCM under BIST functionally disabled, and lets no engine run that is not enabled. -/
def Obligations.BistStaysApart : Prop :=
  ∀ s t : State, s.bistApart → step s = .next t → t.bistApart

/-! ## Encodings -/

/-- R98 to R122: every well-formed instruction is what its encoding decodes to. -/
def Obligations.DecodeEncode : Prop :=
  ∀ i : Instr, i.wellFormed = true → decode (encode i) = i

/-- R98 to R122: every word and every halfword decodes to a well-formed instruction, whose encoding it is: no bit is
dropped. -/
def Obligations.EncodeDecode : Prop :=
  ∀ k : Code, (decode k).wellFormed = true ∧ encode (decode k) = k

/-- R123, R172, R205 to R214, R254, R301 and the examples of their rules: words written out from the spec. -/
def Obligations.DecodeWords : Prop :=
  decodeTableWord 32 0xE3A00001 = some (.movImm .al false 0 0 0 1) ∧
  decodeTableWord 32 0xE16F0F11 = some (.clz .al 15 0 15 1) ∧
  decodeTableWord 32 0xEF123456 = some (.swi .al 0x123456) ∧
  decodeTableWord 32 0xE12ABC7D = some (.bkpt .al 0xABC 0xD) ∧
  decodeTableWord 32 0xF551F010 = some (.pldImm false 1 16) ∧
  decodeTableWord 32 0xE8C06000 = some (.stmUser .al false true false 0 0x6000) ∧
  decodeTableWord 32 0xEE3F0F50 = some (.mrcIBistAddress .al 0) ∧
  decodeTableWord 16 0x3801 = some (.tSubImm8 0 1) ∧
  decodeTableWord 16 0xE7FE = some (.tB 0x7FE) ∧
  decodeTableWord 16 0x44D1 = some (.tAddHi 10 9)
end

