-- ==== Sys2Proof/Laws/Memory.lean ====
section
/-! SUPPORT. The laws of the sparse memories and the write buffers: the canonical form is kept by every operation, a read
gives the last byte written, and a buffered write reaches memory as an unbuffered one would. -/

namespace Sys2Proof.Machine

/-! ## Sparse memory -/

/-- Everything below the first key of a memory in canonical form reads as an unlisted address. -/
theorem Memory.read_below {m : Memory} {a : Nat} (h : ∀ c ∈ m, a < c.1) : m.read a = Memory.default := by
  induction m with
  | nil => rfl
  | cons c m ih =>
    have hc := h c (by simp)
    simp only [Memory.read]
    rw [if_neg (by omega)]
    exact ih fun d hd => h d (by simp [hd])

/-- A key of a memory after a write is an old one or the one written. -/
theorem Memory.key_write {m : Memory} {a : Nat} {b : Byte} {c : Host.Cell} (h : c ∈ m.write a b) :
    c.1 = a ∨ c ∈ m := by
  induction m with
  | nil =>
    simp only [Memory.write] at h
    split at h
    · simp at h
    · simp_all
  | cons d m ih =>
    simp only [Memory.write] at h
    split at h
    · split at h
      · exact .inr h
      · rcases List.mem_cons.mp h with h | h
        · exact .inl (by rw [h])
        · exact .inr h
    · split at h
      · split at h
        · exact .inr (by simp [h])
        · rcases List.mem_cons.mp h with h | h
          · exact .inl (by rw [h])
          · exact .inr (by simp [h])
      · rcases List.mem_cons.mp h with h | h
        · exact .inr (by simp [h])
        · exact (ih h).imp_right fun h => by simp [h]

/-- A write keeps the canonical form. -/
theorem Memory.write_wf {m : Memory} (a : Nat) (b : Byte) (h : m.wf) : (m.write a b).wf := by
  induction m with
  | nil =>
    simp only [Memory.write]
    split <;> simp_all [Memory.wf]
  | cons d m ih =>
    obtain ⟨hs, hv⟩ := h
    rw [List.pairwise_cons] at hs
    have hm : Memory.wf m := ⟨hs.2, fun c hc => hv c (by simp [hc])⟩
    have hd := hv d (by simp)
    simp only [Memory.write]
    split
    · split
      · exact ⟨List.pairwise_cons.mpr hs, hv⟩
      · rename_i hlt hb
        refine ⟨List.pairwise_cons.mpr ⟨fun c hc => ?_, List.pairwise_cons.mpr hs⟩, fun c hc => ?_⟩
        · rcases List.mem_cons.mp hc with rfl | hc
          · exact hlt
          · exact lt_trans hlt (hs.1 c hc)
        · rcases List.mem_cons.mp hc with rfl | hc
          · exact hb
          · exact hv c hc
    · split
      · rename_i heq
        subst heq
        split
        · exact hm
        · rename_i hb
          exact ⟨List.pairwise_cons.mpr ⟨hs.1, hs.2⟩, fun c hc => by
            rcases List.mem_cons.mp hc with rfl | hc
            · exact hb
            · exact hm.2 c hc⟩
      · rename_i hlt hne
        obtain ⟨is, iv⟩ := ih hm
        refine ⟨List.pairwise_cons.mpr ⟨fun c hc => ?_, is⟩, fun c hc => ?_⟩
        · rcases Memory.key_write hc with h | h
          · show d.1 < c.1
            omega
          · exact hs.1 c h
        · rcases List.mem_cons.mp hc with rfl | hc
          · exact hd
          · exact iv c hc

/-- A read after a write: the byte written at its address, what was there everywhere else. -/
theorem Memory.read_write {m : Memory} (h : m.wf) (a : Nat) (b : Byte) (x : Nat) :
    (m.write a b).read x = if x = a then b else m.read x := by
  induction m with
  | nil =>
    simp only [Memory.write]
    split <;> simp_all [Memory.read, eq_comm]
  | cons d m ih =>
    obtain ⟨hs, hv⟩ := h
    rw [List.pairwise_cons] at hs
    have hm : Memory.wf m := ⟨hs.2, fun c hc => hv c (by simp [hc])⟩
    have hrest (hle : x ≤ d.1) : Memory.read m x = Memory.default :=
      Memory.read_below fun c hc => lt_of_le_of_lt hle (hs.1 c hc)
    obtain ⟨k, v⟩ := d
    simp only [Memory.write]
    split
    · split
      · simp only [Memory.read]
        split_ifs <;> first | rfl | omega | (rename_i hb _ hx; rw [hrest (by simp; omega), hb])
      · simp only [Memory.read]
        split_ifs <;> first | rfl | omega
    · split
      · rename_i heq
        subst heq
        split
        · simp only [Memory.read]
          split_ifs <;> first | rfl | omega | (rename_i hb hx; rw [hrest (by simp; omega), hb])
        · simp only [Memory.read]
          split_ifs <;> first | rfl | omega
      · simp only [Memory.read, ih hm]
        split_ifs <;> first | rfl | omega

/-- A write of one lane keeps the canonical form. -/
theorem Memory.writeLane_wf {m : Memory} (w : Nat) (lanes : BitVec 4) (v : Word) (k : Nat) (h : m.wf) :
    (m.writeLane w lanes v k).wf := by
  unfold Memory.writeLane
  split
  · exact Memory.write_wf _ _ h
  · exact h

/-- A write of a word keeps the canonical form. -/
theorem Memory.writeWord_wf {m : Memory} (w : Nat) (lanes : BitVec 4) (v : Word) (h : m.wf) :
    (m.writeWord w lanes v).wf :=
  Memory.writeLane_wf _ _ _ _ (Memory.writeLane_wf _ _ _ _ (Memory.writeLane_wf _ _ _ _
    (Memory.writeLane_wf _ _ _ _ h)))

/-- A read after a write of one lane. -/
theorem Memory.read_writeLane {m : Memory} (h : m.wf) (w : Nat) (lanes : BitVec 4) (v : Word) (k x : Nat) :
    (m.writeLane w lanes v k).read x =
      if x = 4 * w + k ∧ lanes.getLsbD k = true then laneByte v k else m.read x := by
  unfold Memory.writeLane
  split
  · rw [Memory.read_write h]
    simp_all
  · simp_all

/-- A read after a write of a word: the enabled lanes of that word have the new bytes. -/
theorem Memory.read_writeWord {m : Memory} (h : m.wf) (w : Nat) (lanes : BitVec 4) (v : Word) (x : Nat) :
    (m.writeWord w lanes v).read x =
      if x / 4 = w ∧ lanes.getLsbD (x % 4) = true then laneByte v (x % 4) else m.read x := by
  have h0 := Memory.writeLane_wf w lanes v 0 h
  have h1 := Memory.writeLane_wf w lanes v 1 h0
  have h2 := Memory.writeLane_wf w lanes v 2 h1
  rw [Memory.writeWord, Memory.read_writeLane h2, Memory.read_writeLane h1, Memory.read_writeLane h0,
    Memory.read_writeLane h]
  by_cases hw : x / 4 = w
  · obtain ⟨k, hk, rfl⟩ : ∃ k < 4, x = 4 * w + k := ⟨x % 4, by omega, by omega⟩
    rw [show (4 * w + k) % 4 = k by omega]
    have hk : k = 0 ∨ k = 1 ∨ k = 2 ∨ k = 3 := by omega
    rcases hk with rfl | rfl | rfl | rfl <;> simp [hw]
  · rw [if_neg (by omega), if_neg (by omega), if_neg (by omega), if_neg (by omega), if_neg (by tauto)]

/-! ## The list of the bytes written -/

/-- A number put into a list is there, and the others stay. -/
theorem mem_insertNat {l : List Nat} {a x : Nat} : x ∈ insertNat l a ↔ x = a ∨ x ∈ l := by
  induction l with
  | nil => simp [insertNat]
  | cons k l ih =>
    simp only [insertNat]
    split
    · simp
    · split
      · simp_all
      · simp only [List.mem_cons, ih]
        tauto

/-- A rising list stays rising. -/
theorem insertNat_rising {l : List Nat} (a : Nat) (h : l.Pairwise (· < ·)) : (insertNat l a).Pairwise (· < ·) := by
  induction l with
  | nil => simp [insertNat]
  | cons k l ih =>
    simp only [insertNat]
    rw [List.pairwise_cons] at h
    split
    · rename_i hlt
      refine List.pairwise_cons.mpr ⟨fun x hx => ?_, List.pairwise_cons.mpr h⟩
      rcases List.mem_cons.mp hx with rfl | hx
      · exact hlt
      · exact lt_trans hlt (h.1 x hx)
    · split
      · exact List.pairwise_cons.mpr h
      · refine List.pairwise_cons.mpr ⟨fun x hx => ?_, ih h.2⟩
        rcases mem_insertNat.mp hx with rfl | hx
        · omega
        · exact h.1 x hx

/-- Marking lanes keeps a rising list rising. -/
theorem markLanes_rising {l : List Nat} (w : Nat) (lanes : BitVec 4) (h : l.Pairwise (· < ·)) :
    (markLanes l w lanes).Pairwise (· < ·) := by
  have step (l : List Nat) (k : Nat) (h : l.Pairwise (· < ·)) :
      (if lanes.getLsbD k then insertNat l (4 * w + k) else l).Pairwise (· < ·) := by
    split
    · exact insertNat_rising _ h
    · exact h
  simp only [markLanes, List.foldl_cons, List.foldl_nil]
  exact step _ _ (step _ _ (step _ _ (step _ _ h)))

/-! ## A TCM and its write buffer -/

/-- A committed word keeps the form. -/
theorem Tcm.commit_inForm {t : Tcm} (w : Nat) (lanes : BitVec 4) (v : Word) (h : t.inForm) :
    (t.commit w lanes v).inForm :=
  ⟨Memory.writeWord_wf _ _ _ h.1, markLanes_rising _ _ h.2⟩

/-- Committing a list of entries keeps the form. -/
theorem Tcm.commitAll_inForm {t : Tcm} (l : List TcmEntry) (h : t.inForm) : (t.commitAll l).inForm := by
  induction l generalizing t with
  | nil => exact h
  | cons e l ih => exact ih (Tcm.commit_inForm _ _ _ h)

/-- Draining keeps the form. -/
theorem Tcm.drain_inForm {t : Tcm} (h : t.inForm) : t.drain.inForm := Tcm.commitAll_inForm _ h

/-- Waiting for the buffer keeps the form. -/
theorem Tcm.waited_inForm {t : Tcm} (order : Bool) (h : t.inForm) : (t.waited order).inForm := by
  unfold Tcm.waited
  split
  · exact Tcm.drain_inForm h
  · exact h

/-- Draining one entry keeps the form. -/
theorem Tcm.drainOne_inForm {t : Tcm} (h : t.inForm) : t.drainOne.inForm := by
  unfold Tcm.drainOne
  split
  · exact h
  · exact Tcm.commit_inForm _ _ _ h

/-- A buffered write keeps the form. -/
theorem Tcm.push_inForm {t : Tcm} (e : TcmEntry) (h : t.inForm) : (t.push e).inForm := by
  unfold Tcm.push
  split
  · exact Tcm.drainOne_inForm h
  · exact h

/-- Committing does not touch the buffer. -/
@[simp] theorem Tcm.commit_buf (t : Tcm) (w : Nat) (lanes : BitVec 4) (v : Word) : (t.commit w lanes v).buf = t.buf :=
  rfl

/-- Committing does not touch the error answers. -/
@[simp] theorem Tcm.commit_err (t : Tcm) (w : Nat) (lanes : BitVec 4) (v : Word) : (t.commit w lanes v).err = t.err :=
  rfl

/-- Committing a list does not touch the buffer. -/
@[simp] theorem Tcm.commitAll_buf (t : Tcm) (l : List TcmEntry) : (t.commitAll l).buf = t.buf := by
  induction l generalizing t with
  | nil => rfl
  | cons e l ih => exact ih _

/-- Committing a list does not touch the error answers. -/
@[simp] theorem Tcm.commitAll_err (t : Tcm) (l : List TcmEntry) : (t.commitAll l).err = t.err := by
  induction l generalizing t with
  | nil => rfl
  | cons e l ih => exact ih _

/-- Committing a list does not touch the hold. -/
@[simp] theorem Tcm.commitAll_hold (t : Tcm) (l : List TcmEntry) : (t.commitAll l).hold = t.hold := by
  induction l generalizing t with
  | nil => rfl
  | cons e l ih => exact ih _

/-- After a drain nothing waits for the buffer. -/
@[simp] theorem Tcm.drain_hold (t : Tcm) : t.drain.hold = false := Tcm.commitAll_hold _ _

/-- After a drain the buffer is empty. -/
@[simp] theorem Tcm.drain_buf (t : Tcm) : t.drain.buf = [] := Tcm.commitAll_buf _ _

/-- A drain does not touch the error answers. -/
@[simp] theorem Tcm.drain_err (t : Tcm) : t.drain.err = t.err := Tcm.commitAll_err _ _

/-- Committing entries one after another. -/
theorem Tcm.commitAll_append (t : Tcm) (l r : List TcmEntry) : t.commitAll (l ++ r) = (t.commitAll l).commitAll r := by
  induction l generalizing t with
  | nil => rfl
  | cons e l ih => exact ih _

/-- A drained TCM has nothing more to drain. -/
@[simp] theorem Tcm.drain_drain (t : Tcm) : t.drain.drain = t.drain := by
  rw [Tcm.drain, Tcm.drain_buf]
  simp only [Tcm.commitAll]
  conv => rhs; rw [show t.drain = { t.drain with buf := t.drain.buf, hold := t.drain.hold } from rfl, Tcm.drain_buf,
    Tcm.drain_hold]

/-- An access that waits for the buffer or not makes no difference to what the TCM holds in the end. -/
@[simp] theorem Tcm.waited_drain (t : Tcm) (order : Bool) : (t.waited order).drain = t.drain := by
  unfold Tcm.waited
  split
  · exact t.drain_drain
  · rfl

/-- Waiting for the buffer does not touch the error answers. -/
@[simp] theorem Tcm.waited_err (t : Tcm) (order : Bool) : (t.waited order).err = t.err := by
  unfold Tcm.waited
  split
  · exact t.drain_err
  · rfl

/-- A hold changes nothing of what a TCM holds in the end. -/
@[simp] theorem Tcm.setHold_drain (t : Tcm) (new old : Bool) : (t.setHold new old).drain = t.drain := rfl

/-- Draining one entry first makes no difference. -/
@[simp] theorem Tcm.drainOne_drain (t : Tcm) : t.drainOne.drain = t.drain := by
  unfold Tcm.drainOne
  split
  · rfl
  · rename_i e es h
    simp only [Tcm.drain, Tcm.commit_buf, h, Tcm.commitAll]
    rfl

/-- What a buffered write comes to once the buffer is drained. -/
@[simp] theorem Tcm.push_drain (t : Tcm) (e : TcmEntry) :
    (t.push e).drain = t.drain.commit e.word e.lanes e.data := by
  have key (t : Tcm) : ({ t with buf := t.buf ++ [e] } : Tcm).drain = t.drain.commit e.word e.lanes e.data := by
    simp only [Tcm.drain, Tcm.commitAll_append, Tcm.commitAll]
  unfold Tcm.push
  rw [key]
  split
  · rw [Tcm.drainOne_drain]
  · rfl

/-- Draining one entry leaves the error inputs alone. -/
@[simp] theorem Tcm.drainOne_err (t : Tcm) : t.drainOne.err = t.err := by
  unfold Tcm.drainOne
  split <;> rfl

/-- A buffered write does not touch the error answers. -/
@[simp] theorem Tcm.push_err (t : Tcm) (e : TcmEntry) : (t.push e).err = t.err := by
  unfold Tcm.push Tcm.drainOne
  split <;> [split; skip] <;> rfl

/-! ## The AHB and its write buffer -/

/-- A write transfer keeps the canonical form. -/
theorem Ahb.writeWord_wf {h : Ahb} (user : Bool) (a : Word) (lanes : BitVec 4) (v : Word) (hw : Memory.wf h.mem) :
    Memory.wf (h.writeWord user a lanes v).mem := by
  unfold Ahb.writeWord
  split
  · exact hw
  · exact Memory.writeWord_wf _ _ _ hw

/-- A write transfer does not touch the error regions. -/
@[simp] theorem Ahb.writeWord_err (h : Ahb) (user : Bool) (a : Word) (lanes : BitVec 4) (v : Word) :
    (h.writeWord user a lanes v).err = h.err := by
  unfold Ahb.writeWord
  split <;> rfl

/-- A write transfer does not touch the buffer. -/
@[simp] theorem Ahb.writeWord_buf (h : Ahb) (user : Bool) (a : Word) (lanes : BitVec 4) (v : Word) :
    (h.writeWord user a lanes v).buf = h.buf := by
  unfold Ahb.writeWord
  split <;> rfl

/-- A write transfer does not touch what is due. -/
@[simp] theorem Ahb.writeWord_due (h : Ahb) (user : Bool) (a : Word) (lanes : BitVec 4) (v : Word) :
    (h.writeWord user a lanes v).due = h.due := by
  unfold Ahb.writeWord
  split <;> rfl

/-- Which transfers answer ERROR does not depend on the buffer. -/
theorem Ahb.writeWord_withBuf (h : Ahb) (user : Bool) (a : Word) (lanes : BitVec 4) (v : Word) (l : List AhbEntry)
    (n : Nat) : ({ h with buf := l, due := n } : Ahb).writeWord user a lanes v =
      { h.writeWord user a lanes v with buf := l, due := n } := by
  unfold Ahb.writeWord Ahb.error
  split <;> rfl

/-- The words of an entry do not touch the buffer. -/
@[simp] theorem Ahb.writeWords_buf (h : Ahb) (user : Bool) (lanes : BitVec 4) (a : Word) (l : List Word) :
    (h.writeWords user lanes a l).buf = h.buf := by
  induction l generalizing h a with
  | nil => rfl
  | cons v l ih => simp [Ahb.writeWords, ih]

/-- The words of an entry do not touch what is due. -/
@[simp] theorem Ahb.writeWords_due (h : Ahb) (user : Bool) (lanes : BitVec 4) (a : Word) (l : List Word) :
    (h.writeWords user lanes a l).due = h.due := by
  induction l generalizing h a with
  | nil => rfl
  | cons v l ih => simp [Ahb.writeWords, ih]

/-- The words of an entry do not touch the error regions. -/
@[simp] theorem Ahb.writeWords_err (h : Ahb) (user : Bool) (lanes : BitVec 4) (a : Word) (l : List Word) :
    (h.writeWords user lanes a l).err = h.err := by
  induction l generalizing h a with
  | nil => rfl
  | cons v l ih => simp [Ahb.writeWords, ih]

/-- The words of an entry keep the canonical form. -/
theorem Ahb.writeWords_wf {h : Ahb} (user : Bool) (lanes : BitVec 4) (a : Word) (l : List Word)
    (hw : Memory.wf h.mem) : Memory.wf (h.writeWords user lanes a l).mem := by
  induction l generalizing h a with
  | nil => exact hw
  | cons v l ih => exact ih _ (Ahb.writeWord_wf _ _ _ _ hw)

/-- Words written one after another. -/
theorem Ahb.writeWords_append (h : Ahb) (user : Bool) (lanes : BitVec 4) (a : Word) (l r : List Word) :
    h.writeWords user lanes a (l ++ r) =
      (h.writeWords user lanes a l).writeWords user lanes (a + BitVec.ofNat 32 (4 * l.length)) r := by
  induction l generalizing h a with
  | nil => simp [Ahb.writeWords]
  | cons v l ih =>
    simp only [List.cons_append, Ahb.writeWords, ih, List.length_cons]
    congr 1
    apply BitVec.eq_of_toNat_eq
    simp
    omega

/-- Entries do not touch the buffer. -/
@[simp] theorem Ahb.writeEntries_buf (h : Ahb) (l : List AhbEntry) : (h.writeEntries l).buf = h.buf := by
  induction l generalizing h with
  | nil => rfl
  | cons e l ih => simp [Ahb.writeEntries, ih]

/-- Entries do not touch what is due. -/
@[simp] theorem Ahb.writeEntries_due (h : Ahb) (l : List AhbEntry) : (h.writeEntries l).due = h.due := by
  induction l generalizing h with
  | nil => rfl
  | cons e l ih => simp [Ahb.writeEntries, ih]

/-- Entries do not touch the error regions. -/
@[simp] theorem Ahb.writeEntries_err (h : Ahb) (l : List AhbEntry) : (h.writeEntries l).err = h.err := by
  induction l generalizing h with
  | nil => rfl
  | cons e l ih => simp [Ahb.writeEntries, ih]

/-- Entries keep the canonical form. -/
theorem Ahb.writeEntries_wf {h : Ahb} (l : List AhbEntry) (hw : Memory.wf h.mem) :
    Memory.wf (h.writeEntries l).mem := by
  induction l generalizing h with
  | nil => exact hw
  | cons e l ih => exact ih (Ahb.writeWords_wf _ _ _ _ hw)

/-- Entries written one after another. -/
theorem Ahb.writeEntries_append (h : Ahb) (l r : List AhbEntry) :
    h.writeEntries (l ++ r) = (h.writeEntries l).writeEntries r := by
  induction l generalizing h with
  | nil => rfl
  | cons e l ih => exact ih _

/-- After a drain the buffer is empty. -/
@[simp] theorem Ahb.drain_buf (h : Ahb) : h.drain.buf = [] := Ahb.writeEntries_buf _ _

/-- After a drain no word is due. -/
@[simp] theorem Ahb.drain_due (h : Ahb) : h.drain.due = 0 := Ahb.writeEntries_due _ _

/-- A drain does not touch the error regions. -/
@[simp] theorem Ahb.drain_err (h : Ahb) : h.drain.err = h.err := Ahb.writeEntries_err _ _

/-- A drain keeps the canonical form. -/
theorem Ahb.drain_wf {h : Ahb} (hw : Memory.wf h.mem) : Memory.wf h.drain.mem := Ahb.writeEntries_wf _ hw

/-- A drained AHB has nothing more to drain. -/
@[simp] theorem Ahb.drain_drain (h : Ahb) : h.drain.drain = h.drain := by
  rw [Ahb.drain, Ahb.drain_buf]
  simp only [Ahb.writeEntries]
  conv => rhs; rw [show h.drain = { h.drain with buf := h.drain.buf, due := h.drain.due } from rfl, Ahb.drain_buf,
    Ahb.drain_due]

/-- With an empty buffer and nothing due there is nothing to drain. -/
theorem Ahb.drain_of_empty {h : Ahb} (hb : h.buf = []) (hd : h.due = 0) : h.drain = h := by
  cases h
  subst hb hd
  rfl

/-- What is due makes no difference to the drained AHB. -/
@[simp] theorem Ahb.flush_drain (h : Ahb) : h.flush.drain = h.drain := rfl

/-- Causing the buffer to be written moves no word yet. -/
@[simp] theorem Ahb.flush_buf (h : Ahb) : h.flush.buf = h.buf := rfl

/-- Causing the buffer to be written changes no byte yet. -/
@[simp] theorem Ahb.flush_mem (h : Ahb) : h.flush.mem = h.mem := rfl

/-- Causing the buffer to be written does not touch the error regions. -/
@[simp] theorem Ahb.flush_err (h : Ahb) : h.flush.err = h.err := rfl

/-- Draining one word keeps the canonical form. -/
theorem Ahb.drainOne_wf {h : Ahb} (hw : Memory.wf h.mem) : Memory.wf h.drainOne.mem := by
  unfold Ahb.drainOne
  split
  · exact hw
  · split
    · exact hw
    · exact Ahb.writeWord_wf _ _ _ _ hw
    · exact Ahb.writeWord_wf _ _ _ _ hw

/-- Draining one word does not touch the error regions. -/
@[simp] theorem Ahb.drainOne_err (h : Ahb) : h.drainOne.err = h.err := by
  unfold Ahb.drainOne
  split
  · rfl
  · split <;> simp

/-- Draining one word first makes no difference. -/
@[simp] theorem Ahb.drainOne_drain (h : Ahb) : h.drainOne.drain = h.drain := by
  unfold Ahb.drainOne
  split
  · rename_i he
    simp [Ahb.drain, he]
  · rename_i e es he
    split
    · rename_i hd
      simp [Ahb.drain, he, Ahb.writeEntries, hd, Ahb.writeWords]
    · rename_i v hd
      simp [Ahb.drain, he, Ahb.writeEntries, hd, Ahb.writeWords, Ahb.writeWord_withBuf]
    · rename_i v vs _ hd
      simp [Ahb.drain, he, Ahb.writeEntries, hd, Ahb.writeWords, Ahb.writeWord_withBuf]

/-- Making room makes no difference to what the drained AHB holds. -/
@[simp] theorem Ahb.makeRoom_drain (new : Bool) (n : Nat) (h : Ahb) : (Ahb.makeRoom new n h).drain = h.drain := by
  induction n generalizing h with
  | zero => rfl
  | succ n ih =>
    simp only [Ahb.makeRoom]
    split
    · rfl
    · rw [ih, Ahb.drainOne_drain]

/-- Making room does not touch the error regions. -/
@[simp] theorem Ahb.makeRoom_err (new : Bool) (n : Nat) (h : Ahb) : (Ahb.makeRoom new n h).err = h.err := by
  induction n generalizing h with
  | zero => rfl
  | succ n ih =>
    simp only [Ahb.makeRoom]
    split
    · rfl
    · rw [ih, Ahb.drainOne_err]

/-- Making room keeps the canonical form. -/
theorem Ahb.makeRoom_wf {h : Ahb} (new : Bool) (n : Nat) (hw : Memory.wf h.mem) :
    Memory.wf (Ahb.makeRoom new n h).mem := by
  induction n generalizing h with
  | zero => exact hw
  | succ n ih =>
    simp only [Ahb.makeRoom]
    split
    · exact hw
    · exact ih (Ahb.drainOne_wf hw)

/-- What a buffered write comes to once the buffer is drained. -/
theorem Ahb.push_drain (h : Ahb) (e : AhbEntry) :
    (h.push e).drain = h.drain.writeWords e.user e.lanes e.addr e.data := by
  have key (h : Ahb) : ({ h with buf := h.buf ++ [e] } : Ahb).drain =
      h.drain.writeWords e.user e.lanes e.addr e.data := by
    simp only [Ahb.drain, Ahb.writeEntries_append, Ahb.writeEntries]
  unfold Ahb.push
  rw [key, Ahb.makeRoom_drain]

/-- A buffered write does not touch the error regions. -/
@[simp] theorem Ahb.push_err (h : Ahb) (e : AhbEntry) : (h.push e).err = h.err := Ahb.makeRoom_err _ _ _

/-- A buffered write keeps the canonical form. -/
theorem Ahb.push_wf {h : Ahb} (e : AhbEntry) (hw : Memory.wf h.mem) : Memory.wf (h.push e).mem :=
  Ahb.makeRoom_wf _ _ hw

/-- The last entry with one more word. -/
theorem writeEntries_appendLast (h : Ahb) (l : List AhbEntry) (last : AhbEntry) (v : Word)
    (hl : l.getLast? = some last) :
    h.writeEntries (appendLast l v) =
      (h.writeEntries l).writeWord last.user (last.addr + BitVec.ofNat 32 (4 * last.data.length)) last.lanes v := by
  induction l generalizing h with
  | nil => simp at hl
  | cons e l ih =>
    cases l with
    | nil =>
      obtain rfl : e = last := by simpa using hl
      simp only [appendLast, Ahb.writeEntries, Ahb.writeWords_append]
      simp [Ahb.writeWords]
    | cons f l =>
      simp only [appendLast, Ahb.writeEntries]
      exact ih _ (by simpa using hl)

/-- What a further word of a store multiple comes to once the buffer is drained. -/
theorem Ahb.pushSeq_drain (h : Ahb) (e : AhbEntry) :
    (h.pushSeq e).drain = h.drain.writeWords e.user e.lanes e.addr e.data := by
  simp only [Ahb.pushSeq]
  split
  · rename_i hc
    split
    · rename_i v hv
      rw [← Ahb.makeRoom_drain false 9 h]
      generalize Ahb.makeRoom false 9 h = g at hc ⊢
      unfold Ahb.continues at hc
      split at hc
      · simp at hc
      · rename_i l hl
        simp only [Bool.and_eq_true, decide_eq_true_eq, beq_iff_eq] at hc
        obtain ⟨⟨⟨ha, hn⟩, _⟩, hu⟩ := hc
        rw [hv]
        simp only [Ahb.drain, Ahb.writeWords]
        rw [writeEntries_appendLast _ _ l v hl, ha, hn, hu]
    · exact Ahb.push_drain h e
  · exact Ahb.push_drain h e

/-- A further word does not touch the error regions. -/
@[simp] theorem Ahb.pushSeq_err (h : Ahb) (e : AhbEntry) : (h.pushSeq e).err = h.err := by
  simp only [Ahb.pushSeq]
  split
  · split
    · exact Ahb.makeRoom_err _ _ _
    · exact Ahb.push_err _ _
  · exact Ahb.push_err _ _

/-- A further word keeps the canonical form. -/
theorem Ahb.pushSeq_wf {h : Ahb} (e : AhbEntry) (hw : Memory.wf h.mem) : Memory.wf (h.pushSeq e).mem := by
  simp only [Ahb.pushSeq]
  split
  · split
    · exact Ahb.makeRoom_wf _ _ hw
    · exact Ahb.push_wf _ hw
  · exact Ahb.push_wf _ hw

/-! ## Reset -/

/-- The memories after reset have their canonical form. -/
theorem State.reset_memoryInForm : State.reset.memoryInForm := by
  unfold State.memoryInForm Tcm.inForm
  decide

end Sys2Proof.Machine
end

