-- ==== Sys2Proof/Laws/State.lean ====
section
/-! SUPPORT. One lemma per field per update of State, so that no proof unfolds a record update. -/

namespace Sys2Proof.Machine

variable (s : State)

/-! ### setCpsr -/

@[simp] theorem State.setCpsr_regs (p : Word) : (s.setCpsr p).regs = s.regs := rfl
@[simp] theorem State.setCpsr_pc (p : Word) : (s.setCpsr p).pc = s.pc := rfl
@[simp] theorem State.setCpsr_cpsr (p : Word) : (s.setCpsr p).cpsr = p := rfl
@[simp] theorem State.setCpsr_spsr (p : Word) : (s.setCpsr p).spsr = s.spsr := rfl
@[simp] theorem State.setCpsr_cp15 (p : Word) : (s.setCpsr p).cp15 = s.cp15 := rfl
@[simp] theorem State.setCpsr_dcc (p : Word) : (s.setCpsr p).dcc = s.dcc := rfl
@[simp] theorem State.setCpsr_dbg (p : Word) : (s.setCpsr p).dbg = s.dbg := rfl
@[simp] theorem State.setCpsr_itcm (p : Word) : (s.setCpsr p).itcm = s.itcm := rfl
@[simp] theorem State.setCpsr_dtcm (p : Word) : (s.setCpsr p).dtcm = s.dtcm := rfl
@[simp] theorem State.setCpsr_ahb (p : Word) : (s.setCpsr p).ahb = s.ahb := rfl
@[simp] theorem State.setCpsr_fetch (p : Word) : (s.setCpsr p).fetch = s.fetch := rfl
@[simp] theorem State.setCpsr_standby (p : Word) : (s.setCpsr p).standby = s.standby := rfl
@[simp] theorem State.setCpsr_pins (p : Word) : (s.setCpsr p).pins = s.pins := rfl
@[simp] theorem State.setCpsr_cp (p : Word) : (s.setCpsr p).cp = s.cp := rfl
@[simp] theorem State.setCpsr_userXfer (p : Word) : (s.setCpsr p).userXfer = s.userXfer := rfl
@[simp] theorem State.setCpsr_fiqServed (p : Word) : (s.setCpsr p).fiqServed = s.fiqServed := rfl
@[simp] theorem State.setCpsr_irqServed (p : Word) : (s.setCpsr p).irqServed = s.irqServed := rfl
@[simp] theorem State.setCpsr_chain (p : Word) : (s.setCpsr p).chain = s.chain := rfl
@[simp] theorem State.setCpsr_prefixes (p : Word) : (s.setCpsr p).prefixes = s.prefixes := rfl
@[simp] theorem State.setCpsr_out (p : Word) : (s.setCpsr p).out = s.out := rfl
@[simp] theorem State.setCpsr_etm (p : Word) : (s.setCpsr p).etm = s.etm := rfl
@[simp] theorem State.setCpsr_freeCtr (p : Word) : (s.setCpsr p).freeCtr = s.freeCtr := rfl
@[simp] theorem State.setCpsr_between (p : Word) : (s.setCpsr p).between = s.between := rfl
@[simp] theorem State.setCpsr_env (p : Word) : (s.setCpsr p).env = s.env := rfl

/-! ### setBankReg -/

@[simp] theorem State.setBankReg_regs (m : Mode) (r : Reg) (v : Word) : (s.setBankReg m r v).regs = s.regs.set (physIndex m r) v := rfl
@[simp] theorem State.setBankReg_pc (m : Mode) (r : Reg) (v : Word) : (s.setBankReg m r v).pc = s.pc := rfl
@[simp] theorem State.setBankReg_cpsr (m : Mode) (r : Reg) (v : Word) : (s.setBankReg m r v).cpsr = s.cpsr := rfl
@[simp] theorem State.setBankReg_spsr (m : Mode) (r : Reg) (v : Word) : (s.setBankReg m r v).spsr = s.spsr := rfl
@[simp] theorem State.setBankReg_cp15 (m : Mode) (r : Reg) (v : Word) : (s.setBankReg m r v).cp15 = s.cp15 := rfl
@[simp] theorem State.setBankReg_dcc (m : Mode) (r : Reg) (v : Word) : (s.setBankReg m r v).dcc = s.dcc := rfl
@[simp] theorem State.setBankReg_dbg (m : Mode) (r : Reg) (v : Word) : (s.setBankReg m r v).dbg = s.dbg := rfl
@[simp] theorem State.setBankReg_itcm (m : Mode) (r : Reg) (v : Word) : (s.setBankReg m r v).itcm = s.itcm := rfl
@[simp] theorem State.setBankReg_dtcm (m : Mode) (r : Reg) (v : Word) : (s.setBankReg m r v).dtcm = s.dtcm := rfl
@[simp] theorem State.setBankReg_ahb (m : Mode) (r : Reg) (v : Word) : (s.setBankReg m r v).ahb = s.ahb := rfl
@[simp] theorem State.setBankReg_fetch (m : Mode) (r : Reg) (v : Word) : (s.setBankReg m r v).fetch = s.fetch := rfl
@[simp] theorem State.setBankReg_standby (m : Mode) (r : Reg) (v : Word) : (s.setBankReg m r v).standby = s.standby := rfl
@[simp] theorem State.setBankReg_pins (m : Mode) (r : Reg) (v : Word) : (s.setBankReg m r v).pins = s.pins := rfl
@[simp] theorem State.setBankReg_cp (m : Mode) (r : Reg) (v : Word) : (s.setBankReg m r v).cp = s.cp := rfl
@[simp] theorem State.setBankReg_userXfer (m : Mode) (r : Reg) (v : Word) : (s.setBankReg m r v).userXfer = s.userXfer := rfl
@[simp] theorem State.setBankReg_fiqServed (m : Mode) (r : Reg) (v : Word) : (s.setBankReg m r v).fiqServed = s.fiqServed := rfl
@[simp] theorem State.setBankReg_irqServed (m : Mode) (r : Reg) (v : Word) : (s.setBankReg m r v).irqServed = s.irqServed := rfl
@[simp] theorem State.setBankReg_chain (m : Mode) (r : Reg) (v : Word) : (s.setBankReg m r v).chain = s.chain := rfl
@[simp] theorem State.setBankReg_prefixes (m : Mode) (r : Reg) (v : Word) : (s.setBankReg m r v).prefixes = s.prefixes := rfl
@[simp] theorem State.setBankReg_out (m : Mode) (r : Reg) (v : Word) : (s.setBankReg m r v).out = s.out := rfl
@[simp] theorem State.setBankReg_etm (m : Mode) (r : Reg) (v : Word) : (s.setBankReg m r v).etm = s.etm := rfl
@[simp] theorem State.setBankReg_freeCtr (m : Mode) (r : Reg) (v : Word) : (s.setBankReg m r v).freeCtr = s.freeCtr := rfl
@[simp] theorem State.setBankReg_between (m : Mode) (r : Reg) (v : Word) : (s.setBankReg m r v).between = s.between := rfl
@[simp] theorem State.setBankReg_env (m : Mode) (r : Reg) (v : Word) : (s.setBankReg m r v).env = s.env := rfl

/-! ### setReg -/

@[simp] theorem State.setReg_regs (r : Reg) (v : Word) : (s.setReg r v).regs = s.regs.set (physIndex s.mode r) v := rfl
@[simp] theorem State.setReg_pc (r : Reg) (v : Word) : (s.setReg r v).pc = s.pc := rfl
@[simp] theorem State.setReg_cpsr (r : Reg) (v : Word) : (s.setReg r v).cpsr = s.cpsr := rfl
@[simp] theorem State.setReg_spsr (r : Reg) (v : Word) : (s.setReg r v).spsr = s.spsr := rfl
@[simp] theorem State.setReg_cp15 (r : Reg) (v : Word) : (s.setReg r v).cp15 = s.cp15 := rfl
@[simp] theorem State.setReg_dcc (r : Reg) (v : Word) : (s.setReg r v).dcc = s.dcc := rfl
@[simp] theorem State.setReg_dbg (r : Reg) (v : Word) : (s.setReg r v).dbg = s.dbg := rfl
@[simp] theorem State.setReg_itcm (r : Reg) (v : Word) : (s.setReg r v).itcm = s.itcm := rfl
@[simp] theorem State.setReg_dtcm (r : Reg) (v : Word) : (s.setReg r v).dtcm = s.dtcm := rfl
@[simp] theorem State.setReg_ahb (r : Reg) (v : Word) : (s.setReg r v).ahb = s.ahb := rfl
@[simp] theorem State.setReg_fetch (r : Reg) (v : Word) : (s.setReg r v).fetch = s.fetch := rfl
@[simp] theorem State.setReg_standby (r : Reg) (v : Word) : (s.setReg r v).standby = s.standby := rfl
@[simp] theorem State.setReg_pins (r : Reg) (v : Word) : (s.setReg r v).pins = s.pins := rfl
@[simp] theorem State.setReg_cp (r : Reg) (v : Word) : (s.setReg r v).cp = s.cp := rfl
@[simp] theorem State.setReg_userXfer (r : Reg) (v : Word) : (s.setReg r v).userXfer = s.userXfer := rfl
@[simp] theorem State.setReg_fiqServed (r : Reg) (v : Word) : (s.setReg r v).fiqServed = s.fiqServed := rfl
@[simp] theorem State.setReg_irqServed (r : Reg) (v : Word) : (s.setReg r v).irqServed = s.irqServed := rfl
@[simp] theorem State.setReg_chain (r : Reg) (v : Word) : (s.setReg r v).chain = s.chain := rfl
@[simp] theorem State.setReg_prefixes (r : Reg) (v : Word) : (s.setReg r v).prefixes = s.prefixes := rfl
@[simp] theorem State.setReg_out (r : Reg) (v : Word) : (s.setReg r v).out = s.out := rfl
@[simp] theorem State.setReg_etm (r : Reg) (v : Word) : (s.setReg r v).etm = s.etm := rfl
@[simp] theorem State.setReg_freeCtr (r : Reg) (v : Word) : (s.setReg r v).freeCtr = s.freeCtr := rfl
@[simp] theorem State.setReg_between (r : Reg) (v : Word) : (s.setReg r v).between = s.between := rfl
@[simp] theorem State.setReg_env (r : Reg) (v : Word) : (s.setReg r v).env = s.env := rfl

/-! ### advance -/

@[simp] theorem State.advance_regs : s.advance.regs = s.regs := rfl
@[simp] theorem State.advance_pc : s.advance.pc = s.nextPc := rfl
@[simp] theorem State.advance_cpsr : s.advance.cpsr = s.cpsr := rfl
@[simp] theorem State.advance_spsr : s.advance.spsr = s.spsr := rfl
@[simp] theorem State.advance_cp15 : s.advance.cp15 = s.cp15 := rfl
@[simp] theorem State.advance_dcc : s.advance.dcc = s.dcc := rfl
@[simp] theorem State.advance_dbg : s.advance.dbg = s.dbg := rfl
@[simp] theorem State.advance_itcm : s.advance.itcm = s.itcm := rfl
@[simp] theorem State.advance_dtcm : s.advance.dtcm = s.dtcm := rfl
@[simp] theorem State.advance_ahb : s.advance.ahb = s.ahb := rfl
@[simp] theorem State.advance_fetch : s.advance.fetch = s.fetch := rfl
@[simp] theorem State.advance_standby : s.advance.standby = s.standby := rfl
@[simp] theorem State.advance_pins : s.advance.pins = s.pins := rfl
@[simp] theorem State.advance_cp : s.advance.cp = s.cp := rfl
@[simp] theorem State.advance_userXfer : s.advance.userXfer = s.userXfer := rfl
@[simp] theorem State.advance_fiqServed : s.advance.fiqServed = s.fiqServed := rfl
@[simp] theorem State.advance_irqServed : s.advance.irqServed = s.irqServed := rfl
@[simp] theorem State.advance_chain : s.advance.chain = s.chain := rfl
@[simp] theorem State.advance_prefixes : s.advance.prefixes = s.prefixes := rfl
@[simp] theorem State.advance_out : s.advance.out = s.out := rfl
@[simp] theorem State.advance_etm : s.advance.etm = s.etm := rfl
@[simp] theorem State.advance_freeCtr : s.advance.freeCtr = s.freeCtr := rfl
@[simp] theorem State.advance_between : s.advance.between = s.between := rfl
@[simp] theorem State.advance_env : s.advance.env = s.env := rfl

/-! ### jump -/

@[simp] theorem State.jump_regs (t : Word) : (s.jump t).regs = s.regs := rfl
@[simp] theorem State.jump_pc (t : Word) : (s.jump t).pc = t := rfl
@[simp] theorem State.jump_cpsr (t : Word) : (s.jump t).cpsr = s.cpsr := rfl
@[simp] theorem State.jump_spsr (t : Word) : (s.jump t).spsr = s.spsr := rfl
@[simp] theorem State.jump_cp15 (t : Word) : (s.jump t).cp15 = s.cp15 := rfl
@[simp] theorem State.jump_dcc (t : Word) : (s.jump t).dcc = s.dcc := rfl
@[simp] theorem State.jump_dbg (t : Word) : (s.jump t).dbg = s.dbg := rfl
@[simp] theorem State.jump_itcm (t : Word) : (s.jump t).itcm = s.itcm := rfl
@[simp] theorem State.jump_dtcm (t : Word) : (s.jump t).dtcm = s.dtcm := rfl
@[simp] theorem State.jump_ahb (t : Word) : (s.jump t).ahb = s.ahb := rfl
@[simp] theorem State.jump_fetch (t : Word) : (s.jump t).fetch = { s.fetch with nonseq := true } := rfl
@[simp] theorem State.jump_standby (t : Word) : (s.jump t).standby = s.standby := rfl
@[simp] theorem State.jump_pins (t : Word) : (s.jump t).pins = s.pins := rfl
@[simp] theorem State.jump_cp (t : Word) : (s.jump t).cp = s.cp := rfl
@[simp] theorem State.jump_userXfer (t : Word) : (s.jump t).userXfer = s.userXfer := rfl
@[simp] theorem State.jump_fiqServed (t : Word) : (s.jump t).fiqServed = s.fiqServed := rfl
@[simp] theorem State.jump_irqServed (t : Word) : (s.jump t).irqServed = s.irqServed := rfl
@[simp] theorem State.jump_chain (t : Word) : (s.jump t).chain = s.chain := rfl
@[simp] theorem State.jump_prefixes (t : Word) : (s.jump t).prefixes = s.prefixes := rfl
@[simp] theorem State.jump_out (t : Word) : (s.jump t).out = s.out := rfl
@[simp] theorem State.jump_etm (t : Word) : (s.jump t).etm = s.etm := rfl
@[simp] theorem State.jump_freeCtr (t : Word) : (s.jump t).freeCtr = s.freeCtr := rfl
@[simp] theorem State.jump_between (t : Word) : (s.jump t).between = s.between := rfl
@[simp] theorem State.jump_env (t : Word) : (s.jump t).env = s.env := rfl

/-! ### takeWord -/

@[simp] theorem State.takeWord_regs : s.takeWord.2.regs = s.regs := rfl
@[simp] theorem State.takeWord_pc : s.takeWord.2.pc = s.pc := rfl
@[simp] theorem State.takeWord_cpsr : s.takeWord.2.cpsr = s.cpsr := rfl
@[simp] theorem State.takeWord_spsr : s.takeWord.2.spsr = s.spsr := rfl
@[simp] theorem State.takeWord_cp15 : s.takeWord.2.cp15 = s.cp15 := rfl
@[simp] theorem State.takeWord_dcc : s.takeWord.2.dcc = s.dcc := rfl
@[simp] theorem State.takeWord_dbg : s.takeWord.2.dbg = s.dbg := rfl
@[simp] theorem State.takeWord_itcm : s.takeWord.2.itcm = s.itcm := rfl
@[simp] theorem State.takeWord_dtcm : s.takeWord.2.dtcm = s.dtcm := rfl
@[simp] theorem State.takeWord_ahb : s.takeWord.2.ahb = s.ahb := rfl
@[simp] theorem State.takeWord_fetch : s.takeWord.2.fetch = s.fetch := rfl
@[simp] theorem State.takeWord_standby : s.takeWord.2.standby = s.standby := rfl
@[simp] theorem State.takeWord_pins : s.takeWord.2.pins = s.pins := rfl
@[simp] theorem State.takeWord_cp : s.takeWord.2.cp = s.cp := rfl
@[simp] theorem State.takeWord_userXfer : s.takeWord.2.userXfer = s.userXfer := rfl
@[simp] theorem State.takeWord_fiqServed : s.takeWord.2.fiqServed = s.fiqServed := rfl
@[simp] theorem State.takeWord_irqServed : s.takeWord.2.irqServed = s.irqServed := rfl
@[simp] theorem State.takeWord_chain : s.takeWord.2.chain = s.chain := rfl
@[simp] theorem State.takeWord_prefixes : s.takeWord.2.prefixes = s.prefixes := rfl
@[simp] theorem State.takeWord_out : s.takeWord.2.out = s.out := rfl
@[simp] theorem State.takeWord_etm : s.takeWord.2.etm = s.etm := rfl
@[simp] theorem State.takeWord_freeCtr : s.takeWord.2.freeCtr = s.freeCtr + 1 := rfl
@[simp] theorem State.takeWord_between : s.takeWord.2.between = s.between := rfl
@[simp] theorem State.takeWord_env : s.takeWord.2.env = s.env := rfl

/-! ### takeBool -/

@[simp] theorem State.takeBool_regs : s.takeBool.2.regs = s.regs := rfl
@[simp] theorem State.takeBool_pc : s.takeBool.2.pc = s.pc := rfl
@[simp] theorem State.takeBool_cpsr : s.takeBool.2.cpsr = s.cpsr := rfl
@[simp] theorem State.takeBool_spsr : s.takeBool.2.spsr = s.spsr := rfl
@[simp] theorem State.takeBool_cp15 : s.takeBool.2.cp15 = s.cp15 := rfl
@[simp] theorem State.takeBool_dcc : s.takeBool.2.dcc = s.dcc := rfl
@[simp] theorem State.takeBool_dbg : s.takeBool.2.dbg = s.dbg := rfl
@[simp] theorem State.takeBool_itcm : s.takeBool.2.itcm = s.itcm := rfl
@[simp] theorem State.takeBool_dtcm : s.takeBool.2.dtcm = s.dtcm := rfl
@[simp] theorem State.takeBool_ahb : s.takeBool.2.ahb = s.ahb := rfl
@[simp] theorem State.takeBool_fetch : s.takeBool.2.fetch = s.fetch := rfl
@[simp] theorem State.takeBool_standby : s.takeBool.2.standby = s.standby := rfl
@[simp] theorem State.takeBool_pins : s.takeBool.2.pins = s.pins := rfl
@[simp] theorem State.takeBool_cp : s.takeBool.2.cp = s.cp := rfl
@[simp] theorem State.takeBool_userXfer : s.takeBool.2.userXfer = s.userXfer := rfl
@[simp] theorem State.takeBool_fiqServed : s.takeBool.2.fiqServed = s.fiqServed := rfl
@[simp] theorem State.takeBool_irqServed : s.takeBool.2.irqServed = s.irqServed := rfl
@[simp] theorem State.takeBool_chain : s.takeBool.2.chain = s.chain := rfl
@[simp] theorem State.takeBool_prefixes : s.takeBool.2.prefixes = s.prefixes := rfl
@[simp] theorem State.takeBool_out : s.takeBool.2.out = s.out := rfl
@[simp] theorem State.takeBool_etm : s.takeBool.2.etm = s.etm := rfl
@[simp] theorem State.takeBool_freeCtr : s.takeBool.2.freeCtr = s.freeCtr + 1 := rfl
@[simp] theorem State.takeBool_between : s.takeBool.2.between = s.between := rfl
@[simp] theorem State.takeBool_env : s.takeBool.2.env = s.env := rfl

/-! ### setFlags -/

@[simp] theorem State.setFlags_regs (o : AluOut) : (s.setFlags o).regs = s.regs := rfl
@[simp] theorem State.setFlags_pc (o : AluOut) : (s.setFlags o).pc = s.pc := rfl
@[simp] theorem State.setFlags_cpsr (o : AluOut) : (s.setFlags o).cpsr = Psr.setNzcv s.cpsr (o.result.getLsbD 31) (decide (o.result = 0)) o.c o.v := rfl
@[simp] theorem State.setFlags_spsr (o : AluOut) : (s.setFlags o).spsr = s.spsr := rfl
@[simp] theorem State.setFlags_cp15 (o : AluOut) : (s.setFlags o).cp15 = s.cp15 := rfl
@[simp] theorem State.setFlags_dcc (o : AluOut) : (s.setFlags o).dcc = s.dcc := rfl
@[simp] theorem State.setFlags_dbg (o : AluOut) : (s.setFlags o).dbg = s.dbg := rfl
@[simp] theorem State.setFlags_itcm (o : AluOut) : (s.setFlags o).itcm = s.itcm := rfl
@[simp] theorem State.setFlags_dtcm (o : AluOut) : (s.setFlags o).dtcm = s.dtcm := rfl
@[simp] theorem State.setFlags_ahb (o : AluOut) : (s.setFlags o).ahb = s.ahb := rfl
@[simp] theorem State.setFlags_fetch (o : AluOut) : (s.setFlags o).fetch = s.fetch := rfl
@[simp] theorem State.setFlags_standby (o : AluOut) : (s.setFlags o).standby = s.standby := rfl
@[simp] theorem State.setFlags_pins (o : AluOut) : (s.setFlags o).pins = s.pins := rfl
@[simp] theorem State.setFlags_cp (o : AluOut) : (s.setFlags o).cp = s.cp := rfl
@[simp] theorem State.setFlags_userXfer (o : AluOut) : (s.setFlags o).userXfer = s.userXfer := rfl
@[simp] theorem State.setFlags_fiqServed (o : AluOut) : (s.setFlags o).fiqServed = s.fiqServed := rfl
@[simp] theorem State.setFlags_irqServed (o : AluOut) : (s.setFlags o).irqServed = s.irqServed := rfl
@[simp] theorem State.setFlags_chain (o : AluOut) : (s.setFlags o).chain = s.chain := rfl
@[simp] theorem State.setFlags_prefixes (o : AluOut) : (s.setFlags o).prefixes = s.prefixes := rfl
@[simp] theorem State.setFlags_out (o : AluOut) : (s.setFlags o).out = s.out := rfl
@[simp] theorem State.setFlags_etm (o : AluOut) : (s.setFlags o).etm = s.etm := rfl
@[simp] theorem State.setFlags_freeCtr (o : AluOut) : (s.setFlags o).freeCtr = s.freeCtr := rfl
@[simp] theorem State.setFlags_between (o : AluOut) : (s.setFlags o).between = s.between := rfl
@[simp] theorem State.setFlags_env (o : AluOut) : (s.setFlags o).env = s.env := rfl

/-! ### setNz -/

@[simp] theorem State.setNz_regs (r : Word) : (s.setNz r).regs = s.regs := rfl
@[simp] theorem State.setNz_pc (r : Word) : (s.setNz r).pc = s.pc := rfl
@[simp] theorem State.setNz_cpsr (r : Word) : (s.setNz r).cpsr = Psr.setNz s.cpsr (r.getLsbD 31) (decide (r = 0)) := rfl
@[simp] theorem State.setNz_spsr (r : Word) : (s.setNz r).spsr = s.spsr := rfl
@[simp] theorem State.setNz_cp15 (r : Word) : (s.setNz r).cp15 = s.cp15 := rfl
@[simp] theorem State.setNz_dcc (r : Word) : (s.setNz r).dcc = s.dcc := rfl
@[simp] theorem State.setNz_dbg (r : Word) : (s.setNz r).dbg = s.dbg := rfl
@[simp] theorem State.setNz_itcm (r : Word) : (s.setNz r).itcm = s.itcm := rfl
@[simp] theorem State.setNz_dtcm (r : Word) : (s.setNz r).dtcm = s.dtcm := rfl
@[simp] theorem State.setNz_ahb (r : Word) : (s.setNz r).ahb = s.ahb := rfl
@[simp] theorem State.setNz_fetch (r : Word) : (s.setNz r).fetch = s.fetch := rfl
@[simp] theorem State.setNz_standby (r : Word) : (s.setNz r).standby = s.standby := rfl
@[simp] theorem State.setNz_pins (r : Word) : (s.setNz r).pins = s.pins := rfl
@[simp] theorem State.setNz_cp (r : Word) : (s.setNz r).cp = s.cp := rfl
@[simp] theorem State.setNz_userXfer (r : Word) : (s.setNz r).userXfer = s.userXfer := rfl
@[simp] theorem State.setNz_fiqServed (r : Word) : (s.setNz r).fiqServed = s.fiqServed := rfl
@[simp] theorem State.setNz_irqServed (r : Word) : (s.setNz r).irqServed = s.irqServed := rfl
@[simp] theorem State.setNz_chain (r : Word) : (s.setNz r).chain = s.chain := rfl
@[simp] theorem State.setNz_prefixes (r : Word) : (s.setNz r).prefixes = s.prefixes := rfl
@[simp] theorem State.setNz_out (r : Word) : (s.setNz r).out = s.out := rfl
@[simp] theorem State.setNz_etm (r : Word) : (s.setNz r).etm = s.etm := rfl
@[simp] theorem State.setNz_freeCtr (r : Word) : (s.setNz r).freeCtr = s.freeCtr := rfl
@[simp] theorem State.setNz_between (r : Word) : (s.setNz r).between = s.between := rfl
@[simp] theorem State.setNz_env (r : Word) : (s.setNz r).env = s.env := rfl

/-! ### setNz64 -/

@[simp] theorem State.setNz64_regs (r : BitVec 64) : (s.setNz64 r).regs = s.regs := rfl
@[simp] theorem State.setNz64_pc (r : BitVec 64) : (s.setNz64 r).pc = s.pc := rfl
@[simp] theorem State.setNz64_cpsr (r : BitVec 64) : (s.setNz64 r).cpsr = Psr.setNz s.cpsr (r.getLsbD 63) (decide (r = 0)) := rfl
@[simp] theorem State.setNz64_spsr (r : BitVec 64) : (s.setNz64 r).spsr = s.spsr := rfl
@[simp] theorem State.setNz64_cp15 (r : BitVec 64) : (s.setNz64 r).cp15 = s.cp15 := rfl
@[simp] theorem State.setNz64_dcc (r : BitVec 64) : (s.setNz64 r).dcc = s.dcc := rfl
@[simp] theorem State.setNz64_dbg (r : BitVec 64) : (s.setNz64 r).dbg = s.dbg := rfl
@[simp] theorem State.setNz64_itcm (r : BitVec 64) : (s.setNz64 r).itcm = s.itcm := rfl
@[simp] theorem State.setNz64_dtcm (r : BitVec 64) : (s.setNz64 r).dtcm = s.dtcm := rfl
@[simp] theorem State.setNz64_ahb (r : BitVec 64) : (s.setNz64 r).ahb = s.ahb := rfl
@[simp] theorem State.setNz64_fetch (r : BitVec 64) : (s.setNz64 r).fetch = s.fetch := rfl
@[simp] theorem State.setNz64_standby (r : BitVec 64) : (s.setNz64 r).standby = s.standby := rfl
@[simp] theorem State.setNz64_pins (r : BitVec 64) : (s.setNz64 r).pins = s.pins := rfl
@[simp] theorem State.setNz64_cp (r : BitVec 64) : (s.setNz64 r).cp = s.cp := rfl
@[simp] theorem State.setNz64_userXfer (r : BitVec 64) : (s.setNz64 r).userXfer = s.userXfer := rfl
@[simp] theorem State.setNz64_fiqServed (r : BitVec 64) : (s.setNz64 r).fiqServed = s.fiqServed := rfl
@[simp] theorem State.setNz64_irqServed (r : BitVec 64) : (s.setNz64 r).irqServed = s.irqServed := rfl
@[simp] theorem State.setNz64_chain (r : BitVec 64) : (s.setNz64 r).chain = s.chain := rfl
@[simp] theorem State.setNz64_prefixes (r : BitVec 64) : (s.setNz64 r).prefixes = s.prefixes := rfl
@[simp] theorem State.setNz64_out (r : BitVec 64) : (s.setNz64 r).out = s.out := rfl
@[simp] theorem State.setNz64_etm (r : BitVec 64) : (s.setNz64 r).etm = s.etm := rfl
@[simp] theorem State.setNz64_freeCtr (r : BitVec 64) : (s.setNz64 r).freeCtr = s.freeCtr := rfl
@[simp] theorem State.setNz64_between (r : BitVec 64) : (s.setNz64 r).between = s.between := rfl
@[simp] theorem State.setNz64_env (r : BitVec 64) : (s.setNz64 r).env = s.env := rfl

/-! ### orQ -/

@[simp] theorem State.orQ_regs (q : Bool) : (s.orQ q).regs = s.regs := rfl
@[simp] theorem State.orQ_pc (q : Bool) : (s.orQ q).pc = s.pc := rfl
@[simp] theorem State.orQ_cpsr (q : Bool) : (s.orQ q).cpsr = Psr.orQ s.cpsr q := rfl
@[simp] theorem State.orQ_spsr (q : Bool) : (s.orQ q).spsr = s.spsr := rfl
@[simp] theorem State.orQ_cp15 (q : Bool) : (s.orQ q).cp15 = s.cp15 := rfl
@[simp] theorem State.orQ_dcc (q : Bool) : (s.orQ q).dcc = s.dcc := rfl
@[simp] theorem State.orQ_dbg (q : Bool) : (s.orQ q).dbg = s.dbg := rfl
@[simp] theorem State.orQ_itcm (q : Bool) : (s.orQ q).itcm = s.itcm := rfl
@[simp] theorem State.orQ_dtcm (q : Bool) : (s.orQ q).dtcm = s.dtcm := rfl
@[simp] theorem State.orQ_ahb (q : Bool) : (s.orQ q).ahb = s.ahb := rfl
@[simp] theorem State.orQ_fetch (q : Bool) : (s.orQ q).fetch = s.fetch := rfl
@[simp] theorem State.orQ_standby (q : Bool) : (s.orQ q).standby = s.standby := rfl
@[simp] theorem State.orQ_pins (q : Bool) : (s.orQ q).pins = s.pins := rfl
@[simp] theorem State.orQ_cp (q : Bool) : (s.orQ q).cp = s.cp := rfl
@[simp] theorem State.orQ_userXfer (q : Bool) : (s.orQ q).userXfer = s.userXfer := rfl
@[simp] theorem State.orQ_fiqServed (q : Bool) : (s.orQ q).fiqServed = s.fiqServed := rfl
@[simp] theorem State.orQ_irqServed (q : Bool) : (s.orQ q).irqServed = s.irqServed := rfl
@[simp] theorem State.orQ_chain (q : Bool) : (s.orQ q).chain = s.chain := rfl
@[simp] theorem State.orQ_prefixes (q : Bool) : (s.orQ q).prefixes = s.prefixes := rfl
@[simp] theorem State.orQ_out (q : Bool) : (s.orQ q).out = s.out := rfl
@[simp] theorem State.orQ_etm (q : Bool) : (s.orQ q).etm = s.etm := rfl
@[simp] theorem State.orQ_freeCtr (q : Bool) : (s.orQ q).freeCtr = s.freeCtr := rfl
@[simp] theorem State.orQ_between (q : Bool) : (s.orQ q).between = s.between := rfl
@[simp] theorem State.orQ_env (q : Bool) : (s.orQ q).env = s.env := rfl

/-! ### drainAhb -/

@[simp] theorem State.drainAhb_regs : s.drainAhb.regs = s.regs := rfl
@[simp] theorem State.drainAhb_pc : s.drainAhb.pc = s.pc := rfl
@[simp] theorem State.drainAhb_cpsr : s.drainAhb.cpsr = s.cpsr := rfl
@[simp] theorem State.drainAhb_spsr : s.drainAhb.spsr = s.spsr := rfl
@[simp] theorem State.drainAhb_cp15 : s.drainAhb.cp15 = s.cp15 := rfl
@[simp] theorem State.drainAhb_dcc : s.drainAhb.dcc = s.dcc := rfl
@[simp] theorem State.drainAhb_dbg : s.drainAhb.dbg = s.dbg := rfl
@[simp] theorem State.drainAhb_itcm : s.drainAhb.itcm = s.itcm := rfl
@[simp] theorem State.drainAhb_dtcm : s.drainAhb.dtcm = s.dtcm := rfl
@[simp] theorem State.drainAhb_ahb : s.drainAhb.ahb = s.ahb.drain := rfl
@[simp] theorem State.drainAhb_fetch : s.drainAhb.fetch = s.fetch := rfl
@[simp] theorem State.drainAhb_standby : s.drainAhb.standby = s.standby := rfl
@[simp] theorem State.drainAhb_pins : s.drainAhb.pins = s.pins := rfl
@[simp] theorem State.drainAhb_cp : s.drainAhb.cp = s.cp := rfl
@[simp] theorem State.drainAhb_userXfer : s.drainAhb.userXfer = s.userXfer := rfl
@[simp] theorem State.drainAhb_fiqServed : s.drainAhb.fiqServed = s.fiqServed := rfl
@[simp] theorem State.drainAhb_irqServed : s.drainAhb.irqServed = s.irqServed := rfl
@[simp] theorem State.drainAhb_chain : s.drainAhb.chain = s.chain := rfl
@[simp] theorem State.drainAhb_prefixes : s.drainAhb.prefixes = s.prefixes := rfl
@[simp] theorem State.drainAhb_out : s.drainAhb.out = s.out := rfl
@[simp] theorem State.drainAhb_etm : s.drainAhb.etm = s.etm := rfl
@[simp] theorem State.drainAhb_freeCtr : s.drainAhb.freeCtr = s.freeCtr := rfl
@[simp] theorem State.drainAhb_between : s.drainAhb.between = s.between := rfl
@[simp] theorem State.drainAhb_env : s.drainAhb.env = s.env := rfl

/-! ### linkNext -/

@[simp] theorem State.linkNext_regs : s.linkNext.regs = s.regs.set (physIndex s.mode lrReg) s.nextPc := rfl
@[simp] theorem State.linkNext_pc : s.linkNext.pc = s.pc := rfl
@[simp] theorem State.linkNext_cpsr : s.linkNext.cpsr = s.cpsr := rfl
@[simp] theorem State.linkNext_spsr : s.linkNext.spsr = s.spsr := rfl
@[simp] theorem State.linkNext_cp15 : s.linkNext.cp15 = s.cp15 := rfl
@[simp] theorem State.linkNext_dcc : s.linkNext.dcc = s.dcc := rfl
@[simp] theorem State.linkNext_dbg : s.linkNext.dbg = s.dbg := rfl
@[simp] theorem State.linkNext_itcm : s.linkNext.itcm = s.itcm := rfl
@[simp] theorem State.linkNext_dtcm : s.linkNext.dtcm = s.dtcm := rfl
@[simp] theorem State.linkNext_ahb : s.linkNext.ahb = s.ahb := rfl
@[simp] theorem State.linkNext_fetch : s.linkNext.fetch = s.fetch := rfl
@[simp] theorem State.linkNext_standby : s.linkNext.standby = s.standby := rfl
@[simp] theorem State.linkNext_pins : s.linkNext.pins = s.pins := rfl
@[simp] theorem State.linkNext_cp : s.linkNext.cp = s.cp := rfl
@[simp] theorem State.linkNext_userXfer : s.linkNext.userXfer = s.userXfer := rfl
@[simp] theorem State.linkNext_fiqServed : s.linkNext.fiqServed = s.fiqServed := rfl
@[simp] theorem State.linkNext_irqServed : s.linkNext.irqServed = s.irqServed := rfl
@[simp] theorem State.linkNext_chain : s.linkNext.chain = s.chain := rfl
@[simp] theorem State.linkNext_prefixes : s.linkNext.prefixes = s.prefixes := rfl
@[simp] theorem State.linkNext_out : s.linkNext.out = s.out := rfl
@[simp] theorem State.linkNext_etm : s.linkNext.etm = s.etm := rfl
@[simp] theorem State.linkNext_freeCtr : s.linkNext.freeCtr = s.freeCtr := rfl
@[simp] theorem State.linkNext_between : s.linkNext.between = s.between := rfl
@[simp] theorem State.linkNext_env : s.linkNext.env = s.env := rfl

/-! ### thumbLink -/

@[simp] theorem State.thumbLink_regs : s.thumbLink.regs = s.regs.set (physIndex s.mode lrReg) (s.nextPc ||| 1) := rfl
@[simp] theorem State.thumbLink_pc : s.thumbLink.pc = s.pc := rfl
@[simp] theorem State.thumbLink_cpsr : s.thumbLink.cpsr = s.cpsr := rfl
@[simp] theorem State.thumbLink_spsr : s.thumbLink.spsr = s.spsr := rfl
@[simp] theorem State.thumbLink_cp15 : s.thumbLink.cp15 = s.cp15 := rfl
@[simp] theorem State.thumbLink_dcc : s.thumbLink.dcc = s.dcc := rfl
@[simp] theorem State.thumbLink_dbg : s.thumbLink.dbg = s.dbg := rfl
@[simp] theorem State.thumbLink_itcm : s.thumbLink.itcm = s.itcm := rfl
@[simp] theorem State.thumbLink_dtcm : s.thumbLink.dtcm = s.dtcm := rfl
@[simp] theorem State.thumbLink_ahb : s.thumbLink.ahb = s.ahb := rfl
@[simp] theorem State.thumbLink_fetch : s.thumbLink.fetch = s.fetch := rfl
@[simp] theorem State.thumbLink_standby : s.thumbLink.standby = s.standby := rfl
@[simp] theorem State.thumbLink_pins : s.thumbLink.pins = s.pins := rfl
@[simp] theorem State.thumbLink_cp : s.thumbLink.cp = s.cp := rfl
@[simp] theorem State.thumbLink_userXfer : s.thumbLink.userXfer = s.userXfer := rfl
@[simp] theorem State.thumbLink_fiqServed : s.thumbLink.fiqServed = s.fiqServed := rfl
@[simp] theorem State.thumbLink_irqServed : s.thumbLink.irqServed = s.irqServed := rfl
@[simp] theorem State.thumbLink_chain : s.thumbLink.chain = s.chain := rfl
@[simp] theorem State.thumbLink_prefixes : s.thumbLink.prefixes = s.prefixes := rfl
@[simp] theorem State.thumbLink_out : s.thumbLink.out = s.out := rfl
@[simp] theorem State.thumbLink_etm : s.thumbLink.etm = s.etm := rfl
@[simp] theorem State.thumbLink_freeCtr : s.thumbLink.freeCtr = s.freeCtr := rfl
@[simp] theorem State.thumbLink_between : s.thumbLink.between = s.between := rfl
@[simp] theorem State.thumbLink_env : s.thumbLink.env = s.env := rfl

/-! ### mapCp -/

@[simp] theorem State.mapCp_regs (n : Reg) (f : CpUnit → CpUnit) : (s.mapCp n f).regs = s.regs := rfl
@[simp] theorem State.mapCp_pc (n : Reg) (f : CpUnit → CpUnit) : (s.mapCp n f).pc = s.pc := rfl
@[simp] theorem State.mapCp_cpsr (n : Reg) (f : CpUnit → CpUnit) : (s.mapCp n f).cpsr = s.cpsr := rfl
@[simp] theorem State.mapCp_spsr (n : Reg) (f : CpUnit → CpUnit) : (s.mapCp n f).spsr = s.spsr := rfl
@[simp] theorem State.mapCp_cp15 (n : Reg) (f : CpUnit → CpUnit) : (s.mapCp n f).cp15 = s.cp15 := rfl
@[simp] theorem State.mapCp_dcc (n : Reg) (f : CpUnit → CpUnit) : (s.mapCp n f).dcc = s.dcc := rfl
@[simp] theorem State.mapCp_dbg (n : Reg) (f : CpUnit → CpUnit) : (s.mapCp n f).dbg = s.dbg := rfl
@[simp] theorem State.mapCp_itcm (n : Reg) (f : CpUnit → CpUnit) : (s.mapCp n f).itcm = s.itcm := rfl
@[simp] theorem State.mapCp_dtcm (n : Reg) (f : CpUnit → CpUnit) : (s.mapCp n f).dtcm = s.dtcm := rfl
@[simp] theorem State.mapCp_ahb (n : Reg) (f : CpUnit → CpUnit) : (s.mapCp n f).ahb = s.ahb := rfl
@[simp] theorem State.mapCp_fetch (n : Reg) (f : CpUnit → CpUnit) : (s.mapCp n f).fetch = s.fetch := rfl
@[simp] theorem State.mapCp_standby (n : Reg) (f : CpUnit → CpUnit) : (s.mapCp n f).standby = s.standby := rfl
@[simp] theorem State.mapCp_pins (n : Reg) (f : CpUnit → CpUnit) : (s.mapCp n f).pins = s.pins := rfl
@[simp] theorem State.mapCp_cp (n : Reg) (f : CpUnit → CpUnit) : (s.mapCp n f).cp = { s.cp with units := s.cp.units.map fun u => if u.num = n then f u else u } := rfl
@[simp] theorem State.mapCp_userXfer (n : Reg) (f : CpUnit → CpUnit) : (s.mapCp n f).userXfer = s.userXfer := rfl
@[simp] theorem State.mapCp_fiqServed (n : Reg) (f : CpUnit → CpUnit) : (s.mapCp n f).fiqServed = s.fiqServed := rfl
@[simp] theorem State.mapCp_irqServed (n : Reg) (f : CpUnit → CpUnit) : (s.mapCp n f).irqServed = s.irqServed := rfl
@[simp] theorem State.mapCp_chain (n : Reg) (f : CpUnit → CpUnit) : (s.mapCp n f).chain = s.chain := rfl
@[simp] theorem State.mapCp_prefixes (n : Reg) (f : CpUnit → CpUnit) : (s.mapCp n f).prefixes = s.prefixes := rfl
@[simp] theorem State.mapCp_out (n : Reg) (f : CpUnit → CpUnit) : (s.mapCp n f).out = s.out := rfl
@[simp] theorem State.mapCp_etm (n : Reg) (f : CpUnit → CpUnit) : (s.mapCp n f).etm = s.etm := rfl
@[simp] theorem State.mapCp_freeCtr (n : Reg) (f : CpUnit → CpUnit) : (s.mapCp n f).freeCtr = s.freeCtr := rfl
@[simp] theorem State.mapCp_between (n : Reg) (f : CpUnit → CpUnit) : (s.mapCp n f).between = s.between := rfl
@[simp] theorem State.mapCp_env (n : Reg) (f : CpUnit → CpUnit) : (s.mapCp n f).env = s.env := rfl

/-! ### setReplies -/

@[simp] theorem State.setReplies_regs (n : Reg) (l : List CpReply) : (s.setReplies n l).regs = s.regs := rfl
@[simp] theorem State.setReplies_pc (n : Reg) (l : List CpReply) : (s.setReplies n l).pc = s.pc := rfl
@[simp] theorem State.setReplies_cpsr (n : Reg) (l : List CpReply) : (s.setReplies n l).cpsr = s.cpsr := rfl
@[simp] theorem State.setReplies_spsr (n : Reg) (l : List CpReply) : (s.setReplies n l).spsr = s.spsr := rfl
@[simp] theorem State.setReplies_cp15 (n : Reg) (l : List CpReply) : (s.setReplies n l).cp15 = s.cp15 := rfl
@[simp] theorem State.setReplies_dcc (n : Reg) (l : List CpReply) : (s.setReplies n l).dcc = s.dcc := rfl
@[simp] theorem State.setReplies_dbg (n : Reg) (l : List CpReply) : (s.setReplies n l).dbg = s.dbg := rfl
@[simp] theorem State.setReplies_itcm (n : Reg) (l : List CpReply) : (s.setReplies n l).itcm = s.itcm := rfl
@[simp] theorem State.setReplies_dtcm (n : Reg) (l : List CpReply) : (s.setReplies n l).dtcm = s.dtcm := rfl
@[simp] theorem State.setReplies_ahb (n : Reg) (l : List CpReply) : (s.setReplies n l).ahb = s.ahb := rfl
@[simp] theorem State.setReplies_fetch (n : Reg) (l : List CpReply) : (s.setReplies n l).fetch = s.fetch := rfl
@[simp] theorem State.setReplies_standby (n : Reg) (l : List CpReply) : (s.setReplies n l).standby = s.standby := rfl
@[simp] theorem State.setReplies_pins (n : Reg) (l : List CpReply) : (s.setReplies n l).pins = s.pins := rfl
@[simp] theorem State.setReplies_cp (n : Reg) (l : List CpReply) : (s.setReplies n l).cp = { s.cp with units := s.cp.units.map fun u => if u.num = n then { u with replies := l } else u } := rfl
@[simp] theorem State.setReplies_userXfer (n : Reg) (l : List CpReply) : (s.setReplies n l).userXfer = s.userXfer := rfl
@[simp] theorem State.setReplies_fiqServed (n : Reg) (l : List CpReply) : (s.setReplies n l).fiqServed = s.fiqServed := rfl
@[simp] theorem State.setReplies_irqServed (n : Reg) (l : List CpReply) : (s.setReplies n l).irqServed = s.irqServed := rfl
@[simp] theorem State.setReplies_chain (n : Reg) (l : List CpReply) : (s.setReplies n l).chain = s.chain := rfl
@[simp] theorem State.setReplies_prefixes (n : Reg) (l : List CpReply) : (s.setReplies n l).prefixes = s.prefixes := rfl
@[simp] theorem State.setReplies_out (n : Reg) (l : List CpReply) : (s.setReplies n l).out = s.out := rfl
@[simp] theorem State.setReplies_etm (n : Reg) (l : List CpReply) : (s.setReplies n l).etm = s.etm := rfl
@[simp] theorem State.setReplies_freeCtr (n : Reg) (l : List CpReply) : (s.setReplies n l).freeCtr = s.freeCtr := rfl
@[simp] theorem State.setReplies_between (n : Reg) (l : List CpReply) : (s.setReplies n l).between = s.between := rfl
@[simp] theorem State.setReplies_env (n : Reg) (l : List CpReply) : (s.setReplies n l).env = s.env := rfl

/-! ### sendCp -/

@[simp] theorem State.sendCp_regs (n : Reg) (x : CpInput) : (s.sendCp n x).regs = s.regs := rfl
@[simp] theorem State.sendCp_pc (n : Reg) (x : CpInput) : (s.sendCp n x).pc = s.pc := rfl
@[simp] theorem State.sendCp_cpsr (n : Reg) (x : CpInput) : (s.sendCp n x).cpsr = s.cpsr := rfl
@[simp] theorem State.sendCp_spsr (n : Reg) (x : CpInput) : (s.sendCp n x).spsr = s.spsr := rfl
@[simp] theorem State.sendCp_cp15 (n : Reg) (x : CpInput) : (s.sendCp n x).cp15 = s.cp15 := rfl
@[simp] theorem State.sendCp_dcc (n : Reg) (x : CpInput) : (s.sendCp n x).dcc = s.dcc := rfl
@[simp] theorem State.sendCp_dbg (n : Reg) (x : CpInput) : (s.sendCp n x).dbg = s.dbg := rfl
@[simp] theorem State.sendCp_itcm (n : Reg) (x : CpInput) : (s.sendCp n x).itcm = s.itcm := rfl
@[simp] theorem State.sendCp_dtcm (n : Reg) (x : CpInput) : (s.sendCp n x).dtcm = s.dtcm := rfl
@[simp] theorem State.sendCp_ahb (n : Reg) (x : CpInput) : (s.sendCp n x).ahb = s.ahb := rfl
@[simp] theorem State.sendCp_fetch (n : Reg) (x : CpInput) : (s.sendCp n x).fetch = s.fetch := rfl
@[simp] theorem State.sendCp_standby (n : Reg) (x : CpInput) : (s.sendCp n x).standby = s.standby := rfl
@[simp] theorem State.sendCp_pins (n : Reg) (x : CpInput) : (s.sendCp n x).pins = s.pins := rfl
@[simp] theorem State.sendCp_cp (n : Reg) (x : CpInput) : (s.sendCp n x).cp = { s.cp with units := s.cp.units.map fun u => if u.num = n then { u with log := u.log ++ [x] } else u } := rfl
@[simp] theorem State.sendCp_userXfer (n : Reg) (x : CpInput) : (s.sendCp n x).userXfer = s.userXfer := rfl
@[simp] theorem State.sendCp_fiqServed (n : Reg) (x : CpInput) : (s.sendCp n x).fiqServed = s.fiqServed := rfl
@[simp] theorem State.sendCp_irqServed (n : Reg) (x : CpInput) : (s.sendCp n x).irqServed = s.irqServed := rfl
@[simp] theorem State.sendCp_chain (n : Reg) (x : CpInput) : (s.sendCp n x).chain = s.chain := rfl
@[simp] theorem State.sendCp_prefixes (n : Reg) (x : CpInput) : (s.sendCp n x).prefixes = s.prefixes := rfl
@[simp] theorem State.sendCp_out (n : Reg) (x : CpInput) : (s.sendCp n x).out = s.out := rfl
@[simp] theorem State.sendCp_etm (n : Reg) (x : CpInput) : (s.sendCp n x).etm = s.etm := rfl
@[simp] theorem State.sendCp_freeCtr (n : Reg) (x : CpInput) : (s.sendCp n x).freeCtr = s.freeCtr := rfl
@[simp] theorem State.sendCp_between (n : Reg) (x : CpInput) : (s.sendCp n x).between = s.between := rfl
@[simp] theorem State.sendCp_env (n : Reg) (x : CpInput) : (s.sendCp n x).env = s.env := rfl

/-! ### setWaiting -/

@[simp] theorem State.setWaiting_regs (w : Option CpWait) : (s.setWaiting w).regs = s.regs := rfl
@[simp] theorem State.setWaiting_pc (w : Option CpWait) : (s.setWaiting w).pc = s.pc := rfl
@[simp] theorem State.setWaiting_cpsr (w : Option CpWait) : (s.setWaiting w).cpsr = s.cpsr := rfl
@[simp] theorem State.setWaiting_spsr (w : Option CpWait) : (s.setWaiting w).spsr = s.spsr := rfl
@[simp] theorem State.setWaiting_cp15 (w : Option CpWait) : (s.setWaiting w).cp15 = s.cp15 := rfl
@[simp] theorem State.setWaiting_dcc (w : Option CpWait) : (s.setWaiting w).dcc = s.dcc := rfl
@[simp] theorem State.setWaiting_dbg (w : Option CpWait) : (s.setWaiting w).dbg = s.dbg := rfl
@[simp] theorem State.setWaiting_itcm (w : Option CpWait) : (s.setWaiting w).itcm = s.itcm := rfl
@[simp] theorem State.setWaiting_dtcm (w : Option CpWait) : (s.setWaiting w).dtcm = s.dtcm := rfl
@[simp] theorem State.setWaiting_ahb (w : Option CpWait) : (s.setWaiting w).ahb = s.ahb := rfl
@[simp] theorem State.setWaiting_fetch (w : Option CpWait) : (s.setWaiting w).fetch = s.fetch := rfl
@[simp] theorem State.setWaiting_standby (w : Option CpWait) : (s.setWaiting w).standby = s.standby := rfl
@[simp] theorem State.setWaiting_pins (w : Option CpWait) : (s.setWaiting w).pins = s.pins := rfl
@[simp] theorem State.setWaiting_cp (w : Option CpWait) : (s.setWaiting w).cp = { s.cp with waiting := w } := rfl
@[simp] theorem State.setWaiting_userXfer (w : Option CpWait) : (s.setWaiting w).userXfer = s.userXfer := rfl
@[simp] theorem State.setWaiting_fiqServed (w : Option CpWait) : (s.setWaiting w).fiqServed = s.fiqServed := rfl
@[simp] theorem State.setWaiting_irqServed (w : Option CpWait) : (s.setWaiting w).irqServed = s.irqServed := rfl
@[simp] theorem State.setWaiting_chain (w : Option CpWait) : (s.setWaiting w).chain = s.chain := rfl
@[simp] theorem State.setWaiting_prefixes (w : Option CpWait) : (s.setWaiting w).prefixes = s.prefixes := rfl
@[simp] theorem State.setWaiting_out (w : Option CpWait) : (s.setWaiting w).out = s.out := rfl
@[simp] theorem State.setWaiting_etm (w : Option CpWait) : (s.setWaiting w).etm = s.etm := rfl
@[simp] theorem State.setWaiting_freeCtr (w : Option CpWait) : (s.setWaiting w).freeCtr = s.freeCtr := rfl
@[simp] theorem State.setWaiting_between (w : Option CpWait) : (s.setWaiting w).between = s.between := rfl
@[simp] theorem State.setWaiting_env (w : Option CpWait) : (s.setWaiting w).env = s.env := rfl

/-! ### lateCancel -/

@[simp] theorem State.lateCancel_regs : s.lateCancel.regs = s.regs := rfl
@[simp] theorem State.lateCancel_pc : s.lateCancel.pc = s.pc := rfl
@[simp] theorem State.lateCancel_cpsr : s.lateCancel.cpsr = s.cpsr := rfl
@[simp] theorem State.lateCancel_spsr : s.lateCancel.spsr = s.spsr := rfl
@[simp] theorem State.lateCancel_cp15 : s.lateCancel.cp15 = s.cp15 := rfl
@[simp] theorem State.lateCancel_dcc : s.lateCancel.dcc = s.dcc := rfl
@[simp] theorem State.lateCancel_dbg : s.lateCancel.dbg = s.dbg := rfl
@[simp] theorem State.lateCancel_itcm : s.lateCancel.itcm = s.itcm := rfl
@[simp] theorem State.lateCancel_dtcm : s.lateCancel.dtcm = s.dtcm := rfl
@[simp] theorem State.lateCancel_ahb : s.lateCancel.ahb = s.ahb := rfl
@[simp] theorem State.lateCancel_fetch : s.lateCancel.fetch = s.fetch := rfl
@[simp] theorem State.lateCancel_standby : s.lateCancel.standby = s.standby := rfl
@[simp] theorem State.lateCancel_pins : s.lateCancel.pins = s.pins := rfl
@[simp] theorem State.lateCancel_cp : s.lateCancel.cp = s.cp := rfl
@[simp] theorem State.lateCancel_userXfer : s.lateCancel.userXfer = s.userXfer := rfl
@[simp] theorem State.lateCancel_fiqServed : s.lateCancel.fiqServed = s.fiqServed := rfl
@[simp] theorem State.lateCancel_irqServed : s.lateCancel.irqServed = s.irqServed := rfl
@[simp] theorem State.lateCancel_chain : s.lateCancel.chain = s.chain := rfl
@[simp] theorem State.lateCancel_prefixes : s.lateCancel.prefixes = s.prefixes := rfl
@[simp] theorem State.lateCancel_out : s.lateCancel.out = { s.out with cpLateCancel := true, dataAbort := true } := rfl
@[simp] theorem State.lateCancel_etm : s.lateCancel.etm = s.etm := rfl
@[simp] theorem State.lateCancel_freeCtr : s.lateCancel.freeCtr = s.freeCtr := rfl
@[simp] theorem State.lateCancel_between : s.lateCancel.between = s.between := rfl
@[simp] theorem State.lateCancel_env : s.lateCancel.env = s.env := rfl

/-! ### withMemories -/

@[simp] theorem State.withMemories_regs (t : State) : (s.withMemories t).regs = s.regs := rfl
@[simp] theorem State.withMemories_pc (t : State) : (s.withMemories t).pc = s.pc := rfl
@[simp] theorem State.withMemories_cpsr (t : State) : (s.withMemories t).cpsr = s.cpsr := rfl
@[simp] theorem State.withMemories_spsr (t : State) : (s.withMemories t).spsr = s.spsr := rfl
@[simp] theorem State.withMemories_cp15 (t : State) : (s.withMemories t).cp15 = s.cp15 := rfl
@[simp] theorem State.withMemories_dcc (t : State) : (s.withMemories t).dcc = s.dcc := rfl
@[simp] theorem State.withMemories_dbg (t : State) : (s.withMemories t).dbg = s.dbg := rfl
@[simp] theorem State.withMemories_itcm (t : State) : (s.withMemories t).itcm = t.itcm := rfl
@[simp] theorem State.withMemories_dtcm (t : State) : (s.withMemories t).dtcm = t.dtcm := rfl
@[simp] theorem State.withMemories_ahb (t : State) : (s.withMemories t).ahb = t.ahb := rfl
@[simp] theorem State.withMemories_fetch (t : State) : (s.withMemories t).fetch = s.fetch := rfl
@[simp] theorem State.withMemories_standby (t : State) : (s.withMemories t).standby = s.standby := rfl
@[simp] theorem State.withMemories_pins (t : State) : (s.withMemories t).pins = s.pins := rfl
@[simp] theorem State.withMemories_cp (t : State) : (s.withMemories t).cp = s.cp := rfl
@[simp] theorem State.withMemories_userXfer (t : State) : (s.withMemories t).userXfer = s.userXfer := rfl
@[simp] theorem State.withMemories_fiqServed (t : State) : (s.withMemories t).fiqServed = s.fiqServed := rfl
@[simp] theorem State.withMemories_irqServed (t : State) : (s.withMemories t).irqServed = s.irqServed := rfl
@[simp] theorem State.withMemories_chain (t : State) : (s.withMemories t).chain = s.chain := rfl
@[simp] theorem State.withMemories_prefixes (t : State) : (s.withMemories t).prefixes = s.prefixes := rfl
@[simp] theorem State.withMemories_out (t : State) : (s.withMemories t).out = s.out := rfl
@[simp] theorem State.withMemories_etm (t : State) : (s.withMemories t).etm = s.etm := rfl
@[simp] theorem State.withMemories_freeCtr (t : State) : (s.withMemories t).freeCtr = s.freeCtr := rfl
@[simp] theorem State.withMemories_between (t : State) : (s.withMemories t).between = s.between := rfl
@[simp] theorem State.withMemories_env (t : State) : (s.withMemories t).env = s.env := rfl

/-! ### afterUserTransfer -/

@[simp] theorem State.afterUserTransfer_regs : s.afterUserTransfer.regs = s.regs := rfl
@[simp] theorem State.afterUserTransfer_pc : s.afterUserTransfer.pc = s.pc := rfl
@[simp] theorem State.afterUserTransfer_cpsr : s.afterUserTransfer.cpsr = s.cpsr := rfl
@[simp] theorem State.afterUserTransfer_spsr : s.afterUserTransfer.spsr = s.spsr := rfl
@[simp] theorem State.afterUserTransfer_cp15 : s.afterUserTransfer.cp15 = s.cp15 := rfl
@[simp] theorem State.afterUserTransfer_dcc : s.afterUserTransfer.dcc = s.dcc := rfl
@[simp] theorem State.afterUserTransfer_dbg : s.afterUserTransfer.dbg = s.dbg := rfl
@[simp] theorem State.afterUserTransfer_itcm : s.afterUserTransfer.itcm = s.itcm := rfl
@[simp] theorem State.afterUserTransfer_dtcm : s.afterUserTransfer.dtcm = s.dtcm := rfl
@[simp] theorem State.afterUserTransfer_ahb : s.afterUserTransfer.ahb = s.ahb := rfl
@[simp] theorem State.afterUserTransfer_fetch : s.afterUserTransfer.fetch = s.fetch := rfl
@[simp] theorem State.afterUserTransfer_standby : s.afterUserTransfer.standby = s.standby := rfl
@[simp] theorem State.afterUserTransfer_pins : s.afterUserTransfer.pins = s.pins := rfl
@[simp] theorem State.afterUserTransfer_cp : s.afterUserTransfer.cp = s.cp := rfl
@[simp] theorem State.afterUserTransfer_userXfer : s.afterUserTransfer.userXfer = true := rfl
@[simp] theorem State.afterUserTransfer_fiqServed : s.afterUserTransfer.fiqServed = s.fiqServed := rfl
@[simp] theorem State.afterUserTransfer_irqServed : s.afterUserTransfer.irqServed = s.irqServed := rfl
@[simp] theorem State.afterUserTransfer_chain : s.afterUserTransfer.chain = s.chain := rfl
@[simp] theorem State.afterUserTransfer_prefixes : s.afterUserTransfer.prefixes = s.prefixes := rfl
@[simp] theorem State.afterUserTransfer_out : s.afterUserTransfer.out = s.out := rfl
@[simp] theorem State.afterUserTransfer_etm : s.afterUserTransfer.etm = s.etm := rfl
@[simp] theorem State.afterUserTransfer_freeCtr : s.afterUserTransfer.freeCtr = s.freeCtr := rfl
@[simp] theorem State.afterUserTransfer_between : s.afterUserTransfer.between = s.between := rfl
@[simp] theorem State.afterUserTransfer_env : s.afterUserTransfer.env = s.env := rfl

/-! ### setDbgAbt -/

@[simp] theorem State.setDbgAbt_regs : s.setDbgAbt.regs = s.regs := rfl
@[simp] theorem State.setDbgAbt_pc : s.setDbgAbt.pc = s.pc := rfl
@[simp] theorem State.setDbgAbt_cpsr : s.setDbgAbt.cpsr = s.cpsr := rfl
@[simp] theorem State.setDbgAbt_spsr : s.setDbgAbt.spsr = s.spsr := rfl
@[simp] theorem State.setDbgAbt_cp15 : s.setDbgAbt.cp15 = s.cp15 := rfl
@[simp] theorem State.setDbgAbt_dcc : s.setDbgAbt.dcc = { s.dcc with dbgAbt := true } := rfl
@[simp] theorem State.setDbgAbt_dbg : s.setDbgAbt.dbg = s.dbg := rfl
@[simp] theorem State.setDbgAbt_itcm : s.setDbgAbt.itcm = s.itcm := rfl
@[simp] theorem State.setDbgAbt_dtcm : s.setDbgAbt.dtcm = s.dtcm := rfl
@[simp] theorem State.setDbgAbt_ahb : s.setDbgAbt.ahb = s.ahb := rfl
@[simp] theorem State.setDbgAbt_fetch : s.setDbgAbt.fetch = s.fetch := rfl
@[simp] theorem State.setDbgAbt_standby : s.setDbgAbt.standby = s.standby := rfl
@[simp] theorem State.setDbgAbt_pins : s.setDbgAbt.pins = s.pins := rfl
@[simp] theorem State.setDbgAbt_cp : s.setDbgAbt.cp = s.cp := rfl
@[simp] theorem State.setDbgAbt_userXfer : s.setDbgAbt.userXfer = s.userXfer := rfl
@[simp] theorem State.setDbgAbt_fiqServed : s.setDbgAbt.fiqServed = s.fiqServed := rfl
@[simp] theorem State.setDbgAbt_irqServed : s.setDbgAbt.irqServed = s.irqServed := rfl
@[simp] theorem State.setDbgAbt_chain : s.setDbgAbt.chain = s.chain := rfl
@[simp] theorem State.setDbgAbt_prefixes : s.setDbgAbt.prefixes = s.prefixes := rfl
@[simp] theorem State.setDbgAbt_out : s.setDbgAbt.out = s.out := rfl
@[simp] theorem State.setDbgAbt_etm : s.setDbgAbt.etm = s.etm := rfl
@[simp] theorem State.setDbgAbt_freeCtr : s.setDbgAbt.freeCtr = s.freeCtr := rfl
@[simp] theorem State.setDbgAbt_between : s.setDbgAbt.between = s.between := rfl
@[simp] theorem State.setDbgAbt_env : s.setDbgAbt.env = s.env := rfl

/-! ### noteWatchAbort -/

@[simp] theorem State.noteWatchAbort_regs : s.noteWatchAbort.regs = s.regs := rfl
@[simp] theorem State.noteWatchAbort_pc : s.noteWatchAbort.pc = s.pc := rfl
@[simp] theorem State.noteWatchAbort_cpsr : s.noteWatchAbort.cpsr = s.cpsr := rfl
@[simp] theorem State.noteWatchAbort_spsr : s.noteWatchAbort.spsr = s.spsr := rfl
@[simp] theorem State.noteWatchAbort_cp15 : s.noteWatchAbort.cp15 = s.cp15 := rfl
@[simp] theorem State.noteWatchAbort_dcc : s.noteWatchAbort.dcc = s.dcc := rfl
@[simp] theorem State.noteWatchAbort_dbg : s.noteWatchAbort.dbg = { s.dbg with watch := .oneMore } := rfl
@[simp] theorem State.noteWatchAbort_itcm : s.noteWatchAbort.itcm = s.itcm := rfl
@[simp] theorem State.noteWatchAbort_dtcm : s.noteWatchAbort.dtcm = s.dtcm := rfl
@[simp] theorem State.noteWatchAbort_ahb : s.noteWatchAbort.ahb = s.ahb := rfl
@[simp] theorem State.noteWatchAbort_fetch : s.noteWatchAbort.fetch = s.fetch := rfl
@[simp] theorem State.noteWatchAbort_standby : s.noteWatchAbort.standby = s.standby := rfl
@[simp] theorem State.noteWatchAbort_pins : s.noteWatchAbort.pins = s.pins := rfl
@[simp] theorem State.noteWatchAbort_cp : s.noteWatchAbort.cp = s.cp := rfl
@[simp] theorem State.noteWatchAbort_userXfer : s.noteWatchAbort.userXfer = s.userXfer := rfl
@[simp] theorem State.noteWatchAbort_fiqServed : s.noteWatchAbort.fiqServed = s.fiqServed := rfl
@[simp] theorem State.noteWatchAbort_irqServed : s.noteWatchAbort.irqServed = s.irqServed := rfl
@[simp] theorem State.noteWatchAbort_chain : s.noteWatchAbort.chain = s.chain := rfl
@[simp] theorem State.noteWatchAbort_prefixes : s.noteWatchAbort.prefixes = s.prefixes := rfl
@[simp] theorem State.noteWatchAbort_out : s.noteWatchAbort.out = s.out := rfl
@[simp] theorem State.noteWatchAbort_etm : s.noteWatchAbort.etm = s.etm := rfl
@[simp] theorem State.noteWatchAbort_freeCtr : s.noteWatchAbort.freeCtr = s.freeCtr := rfl
@[simp] theorem State.noteWatchAbort_between : s.noteWatchAbort.between = s.between := rfl
@[simp] theorem State.noteWatchAbort_env : s.noteWatchAbort.env = s.env := rfl

/-! ### setIpb -/

@[simp] theorem State.setIpb_regs (l : List IpbEntry) : (s.setIpb l).regs = s.regs := rfl
@[simp] theorem State.setIpb_pc (l : List IpbEntry) : (s.setIpb l).pc = s.pc := rfl
@[simp] theorem State.setIpb_cpsr (l : List IpbEntry) : (s.setIpb l).cpsr = s.cpsr := rfl
@[simp] theorem State.setIpb_spsr (l : List IpbEntry) : (s.setIpb l).spsr = s.spsr := rfl
@[simp] theorem State.setIpb_cp15 (l : List IpbEntry) : (s.setIpb l).cp15 = s.cp15 := rfl
@[simp] theorem State.setIpb_dcc (l : List IpbEntry) : (s.setIpb l).dcc = s.dcc := rfl
@[simp] theorem State.setIpb_dbg (l : List IpbEntry) : (s.setIpb l).dbg = s.dbg := rfl
@[simp] theorem State.setIpb_itcm (l : List IpbEntry) : (s.setIpb l).itcm = s.itcm := rfl
@[simp] theorem State.setIpb_dtcm (l : List IpbEntry) : (s.setIpb l).dtcm = s.dtcm := rfl
@[simp] theorem State.setIpb_ahb (l : List IpbEntry) : (s.setIpb l).ahb = s.ahb := rfl
@[simp] theorem State.setIpb_fetch (l : List IpbEntry) : (s.setIpb l).fetch = { s.fetch with ipb := l } := rfl
@[simp] theorem State.setIpb_standby (l : List IpbEntry) : (s.setIpb l).standby = s.standby := rfl
@[simp] theorem State.setIpb_pins (l : List IpbEntry) : (s.setIpb l).pins = s.pins := rfl
@[simp] theorem State.setIpb_cp (l : List IpbEntry) : (s.setIpb l).cp = s.cp := rfl
@[simp] theorem State.setIpb_userXfer (l : List IpbEntry) : (s.setIpb l).userXfer = s.userXfer := rfl
@[simp] theorem State.setIpb_fiqServed (l : List IpbEntry) : (s.setIpb l).fiqServed = s.fiqServed := rfl
@[simp] theorem State.setIpb_irqServed (l : List IpbEntry) : (s.setIpb l).irqServed = s.irqServed := rfl
@[simp] theorem State.setIpb_chain (l : List IpbEntry) : (s.setIpb l).chain = s.chain := rfl
@[simp] theorem State.setIpb_prefixes (l : List IpbEntry) : (s.setIpb l).prefixes = s.prefixes := rfl
@[simp] theorem State.setIpb_out (l : List IpbEntry) : (s.setIpb l).out = s.out := rfl
@[simp] theorem State.setIpb_etm (l : List IpbEntry) : (s.setIpb l).etm = s.etm := rfl
@[simp] theorem State.setIpb_freeCtr (l : List IpbEntry) : (s.setIpb l).freeCtr = s.freeCtr := rfl
@[simp] theorem State.setIpb_between (l : List IpbEntry) : (s.setIpb l).between = s.between := rfl
@[simp] theorem State.setIpb_env (l : List IpbEntry) : (s.setIpb l).env = s.env := rfl

/-! ### notePrefix -/

@[simp] theorem State.notePrefix_regs (v : Word) : (s.notePrefix v).regs = s.regs := rfl
@[simp] theorem State.notePrefix_pc (v : Word) : (s.notePrefix v).pc = s.pc := rfl
@[simp] theorem State.notePrefix_cpsr (v : Word) : (s.notePrefix v).cpsr = s.cpsr := rfl
@[simp] theorem State.notePrefix_spsr (v : Word) : (s.notePrefix v).spsr = s.spsr := rfl
@[simp] theorem State.notePrefix_cp15 (v : Word) : (s.notePrefix v).cp15 = s.cp15 := rfl
@[simp] theorem State.notePrefix_dcc (v : Word) : (s.notePrefix v).dcc = s.dcc := rfl
@[simp] theorem State.notePrefix_dbg (v : Word) : (s.notePrefix v).dbg = s.dbg := rfl
@[simp] theorem State.notePrefix_itcm (v : Word) : (s.notePrefix v).itcm = s.itcm := rfl
@[simp] theorem State.notePrefix_dtcm (v : Word) : (s.notePrefix v).dtcm = s.dtcm := rfl
@[simp] theorem State.notePrefix_ahb (v : Word) : (s.notePrefix v).ahb = s.ahb := rfl
@[simp] theorem State.notePrefix_fetch (v : Word) : (s.notePrefix v).fetch = s.fetch := rfl
@[simp] theorem State.notePrefix_standby (v : Word) : (s.notePrefix v).standby = s.standby := rfl
@[simp] theorem State.notePrefix_pins (v : Word) : (s.notePrefix v).pins = s.pins := rfl
@[simp] theorem State.notePrefix_cp (v : Word) : (s.notePrefix v).cp = s.cp := rfl
@[simp] theorem State.notePrefix_userXfer (v : Word) : (s.notePrefix v).userXfer = s.userXfer := rfl
@[simp] theorem State.notePrefix_fiqServed (v : Word) : (s.notePrefix v).fiqServed = s.fiqServed := rfl
@[simp] theorem State.notePrefix_irqServed (v : Word) : (s.notePrefix v).irqServed = s.irqServed := rfl
@[simp] theorem State.notePrefix_chain (v : Word) : (s.notePrefix v).chain = s.chain := rfl
@[simp] theorem State.notePrefix_prefixes (v : Word) : (s.notePrefix v).prefixes = ⟨s.nextPc, v⟩ :: s.prefixes := rfl
@[simp] theorem State.notePrefix_out (v : Word) : (s.notePrefix v).out = s.out := rfl
@[simp] theorem State.notePrefix_etm (v : Word) : (s.notePrefix v).etm = s.etm := rfl
@[simp] theorem State.notePrefix_freeCtr (v : Word) : (s.notePrefix v).freeCtr = s.freeCtr := rfl
@[simp] theorem State.notePrefix_between (v : Word) : (s.notePrefix v).between = s.between := rfl
@[simp] theorem State.notePrefix_env (v : Word) : (s.notePrefix v).env = s.env := rfl

/-! ### dropPrefix -/

@[simp] theorem State.dropPrefix_regs : s.dropPrefix.regs = s.regs := rfl
@[simp] theorem State.dropPrefix_pc : s.dropPrefix.pc = s.pc := rfl
@[simp] theorem State.dropPrefix_cpsr : s.dropPrefix.cpsr = s.cpsr := rfl
@[simp] theorem State.dropPrefix_spsr : s.dropPrefix.spsr = s.spsr := rfl
@[simp] theorem State.dropPrefix_cp15 : s.dropPrefix.cp15 = s.cp15 := rfl
@[simp] theorem State.dropPrefix_dcc : s.dropPrefix.dcc = s.dcc := rfl
@[simp] theorem State.dropPrefix_dbg : s.dropPrefix.dbg = s.dbg := rfl
@[simp] theorem State.dropPrefix_itcm : s.dropPrefix.itcm = s.itcm := rfl
@[simp] theorem State.dropPrefix_dtcm : s.dropPrefix.dtcm = s.dtcm := rfl
@[simp] theorem State.dropPrefix_ahb : s.dropPrefix.ahb = s.ahb := rfl
@[simp] theorem State.dropPrefix_fetch : s.dropPrefix.fetch = s.fetch := rfl
@[simp] theorem State.dropPrefix_standby : s.dropPrefix.standby = s.standby := rfl
@[simp] theorem State.dropPrefix_pins : s.dropPrefix.pins = s.pins := rfl
@[simp] theorem State.dropPrefix_cp : s.dropPrefix.cp = s.cp := rfl
@[simp] theorem State.dropPrefix_userXfer : s.dropPrefix.userXfer = s.userXfer := rfl
@[simp] theorem State.dropPrefix_fiqServed : s.dropPrefix.fiqServed = s.fiqServed := rfl
@[simp] theorem State.dropPrefix_irqServed : s.dropPrefix.irqServed = s.irqServed := rfl
@[simp] theorem State.dropPrefix_chain : s.dropPrefix.chain = s.chain := rfl
@[simp] theorem State.dropPrefix_prefixes : s.dropPrefix.prefixes = s.prefixes.erase s.ownPrefix := rfl
@[simp] theorem State.dropPrefix_out : s.dropPrefix.out = s.out := rfl
@[simp] theorem State.dropPrefix_etm : s.dropPrefix.etm = s.etm := rfl
@[simp] theorem State.dropPrefix_freeCtr : s.dropPrefix.freeCtr = s.freeCtr := rfl
@[simp] theorem State.dropPrefix_between : s.dropPrefix.between = s.between := rfl
@[simp] theorem State.dropPrefix_env : s.dropPrefix.env = s.env := rfl

/-! ### setPipe -/

@[simp] theorem State.setPipe_regs (l : List Fetched) : (s.setPipe l).regs = s.regs := rfl
@[simp] theorem State.setPipe_pc (l : List Fetched) : (s.setPipe l).pc = s.pc := rfl
@[simp] theorem State.setPipe_cpsr (l : List Fetched) : (s.setPipe l).cpsr = s.cpsr := rfl
@[simp] theorem State.setPipe_spsr (l : List Fetched) : (s.setPipe l).spsr = s.spsr := rfl
@[simp] theorem State.setPipe_cp15 (l : List Fetched) : (s.setPipe l).cp15 = s.cp15 := rfl
@[simp] theorem State.setPipe_dcc (l : List Fetched) : (s.setPipe l).dcc = s.dcc := rfl
@[simp] theorem State.setPipe_dbg (l : List Fetched) : (s.setPipe l).dbg = s.dbg := rfl
@[simp] theorem State.setPipe_itcm (l : List Fetched) : (s.setPipe l).itcm = s.itcm := rfl
@[simp] theorem State.setPipe_dtcm (l : List Fetched) : (s.setPipe l).dtcm = s.dtcm := rfl
@[simp] theorem State.setPipe_ahb (l : List Fetched) : (s.setPipe l).ahb = s.ahb := rfl
@[simp] theorem State.setPipe_fetch (l : List Fetched) : (s.setPipe l).fetch = { s.fetch with pipe := l } := rfl
@[simp] theorem State.setPipe_standby (l : List Fetched) : (s.setPipe l).standby = s.standby := rfl
@[simp] theorem State.setPipe_pins (l : List Fetched) : (s.setPipe l).pins = s.pins := rfl
@[simp] theorem State.setPipe_cp (l : List Fetched) : (s.setPipe l).cp = s.cp := rfl
@[simp] theorem State.setPipe_userXfer (l : List Fetched) : (s.setPipe l).userXfer = s.userXfer := rfl
@[simp] theorem State.setPipe_fiqServed (l : List Fetched) : (s.setPipe l).fiqServed = s.fiqServed := rfl
@[simp] theorem State.setPipe_irqServed (l : List Fetched) : (s.setPipe l).irqServed = s.irqServed := rfl
@[simp] theorem State.setPipe_chain (l : List Fetched) : (s.setPipe l).chain = s.chain := rfl
@[simp] theorem State.setPipe_prefixes (l : List Fetched) : (s.setPipe l).prefixes = s.prefixes := rfl
@[simp] theorem State.setPipe_out (l : List Fetched) : (s.setPipe l).out = s.out := rfl
@[simp] theorem State.setPipe_etm (l : List Fetched) : (s.setPipe l).etm = s.etm := rfl
@[simp] theorem State.setPipe_freeCtr (l : List Fetched) : (s.setPipe l).freeCtr = s.freeCtr := rfl
@[simp] theorem State.setPipe_between (l : List Fetched) : (s.setPipe l).between = s.between := rfl
@[simp] theorem State.setPipe_env (l : List Fetched) : (s.setPipe l).env = s.env := rfl

/-! ### setScanOut -/

@[simp] theorem State.setScanOut_regs (v : Word) : (s.setScanOut v).regs = s.regs := rfl
@[simp] theorem State.setScanOut_pc (v : Word) : (s.setScanOut v).pc = s.pc := rfl
@[simp] theorem State.setScanOut_cpsr (v : Word) : (s.setScanOut v).cpsr = s.cpsr := rfl
@[simp] theorem State.setScanOut_spsr (v : Word) : (s.setScanOut v).spsr = s.spsr := rfl
@[simp] theorem State.setScanOut_cp15 (v : Word) : (s.setScanOut v).cp15 = s.cp15 := rfl
@[simp] theorem State.setScanOut_dcc (v : Word) : (s.setScanOut v).dcc = s.dcc := rfl
@[simp] theorem State.setScanOut_dbg (v : Word) : (s.setScanOut v).dbg = { s.dbg with scanOut := v } := rfl
@[simp] theorem State.setScanOut_itcm (v : Word) : (s.setScanOut v).itcm = s.itcm := rfl
@[simp] theorem State.setScanOut_dtcm (v : Word) : (s.setScanOut v).dtcm = s.dtcm := rfl
@[simp] theorem State.setScanOut_ahb (v : Word) : (s.setScanOut v).ahb = s.ahb := rfl
@[simp] theorem State.setScanOut_fetch (v : Word) : (s.setScanOut v).fetch = s.fetch := rfl
@[simp] theorem State.setScanOut_standby (v : Word) : (s.setScanOut v).standby = s.standby := rfl
@[simp] theorem State.setScanOut_pins (v : Word) : (s.setScanOut v).pins = s.pins := rfl
@[simp] theorem State.setScanOut_cp (v : Word) : (s.setScanOut v).cp = s.cp := rfl
@[simp] theorem State.setScanOut_userXfer (v : Word) : (s.setScanOut v).userXfer = s.userXfer := rfl
@[simp] theorem State.setScanOut_fiqServed (v : Word) : (s.setScanOut v).fiqServed = s.fiqServed := rfl
@[simp] theorem State.setScanOut_irqServed (v : Word) : (s.setScanOut v).irqServed = s.irqServed := rfl
@[simp] theorem State.setScanOut_chain (v : Word) : (s.setScanOut v).chain = s.chain := rfl
@[simp] theorem State.setScanOut_prefixes (v : Word) : (s.setScanOut v).prefixes = s.prefixes := rfl
@[simp] theorem State.setScanOut_out (v : Word) : (s.setScanOut v).out = s.out := rfl
@[simp] theorem State.setScanOut_etm (v : Word) : (s.setScanOut v).etm = s.etm := rfl
@[simp] theorem State.setScanOut_freeCtr (v : Word) : (s.setScanOut v).freeCtr = s.freeCtr := rfl
@[simp] theorem State.setScanOut_between (v : Word) : (s.setScanOut v).between = s.between := rfl
@[simp] theorem State.setScanOut_env (v : Word) : (s.setScanOut v).env = s.env := rfl

/-! ### setSpsr -/

@[simp] theorem State.setSpsr_regs (m : Mode) (p : Word) : (s.setSpsr m p).regs = s.regs := by
  cases m <;> rfl
@[simp] theorem State.setSpsr_pc (m : Mode) (p : Word) : (s.setSpsr m p).pc = s.pc := by
  cases m <;> rfl
@[simp] theorem State.setSpsr_cpsr (m : Mode) (p : Word) : (s.setSpsr m p).cpsr = s.cpsr := by
  cases m <;> rfl
@[simp] theorem State.setSpsr_cp15 (m : Mode) (p : Word) : (s.setSpsr m p).cp15 = s.cp15 := by
  cases m <;> rfl
@[simp] theorem State.setSpsr_dcc (m : Mode) (p : Word) : (s.setSpsr m p).dcc = s.dcc := by
  cases m <;> rfl
@[simp] theorem State.setSpsr_dbg (m : Mode) (p : Word) : (s.setSpsr m p).dbg = s.dbg := by
  cases m <;> rfl
@[simp] theorem State.setSpsr_itcm (m : Mode) (p : Word) : (s.setSpsr m p).itcm = s.itcm := by
  cases m <;> rfl
@[simp] theorem State.setSpsr_dtcm (m : Mode) (p : Word) : (s.setSpsr m p).dtcm = s.dtcm := by
  cases m <;> rfl
@[simp] theorem State.setSpsr_ahb (m : Mode) (p : Word) : (s.setSpsr m p).ahb = s.ahb := by
  cases m <;> rfl
@[simp] theorem State.setSpsr_fetch (m : Mode) (p : Word) : (s.setSpsr m p).fetch = s.fetch := by
  cases m <;> rfl
@[simp] theorem State.setSpsr_standby (m : Mode) (p : Word) : (s.setSpsr m p).standby = s.standby := by
  cases m <;> rfl
@[simp] theorem State.setSpsr_pins (m : Mode) (p : Word) : (s.setSpsr m p).pins = s.pins := by
  cases m <;> rfl
@[simp] theorem State.setSpsr_cp (m : Mode) (p : Word) : (s.setSpsr m p).cp = s.cp := by
  cases m <;> rfl
@[simp] theorem State.setSpsr_userXfer (m : Mode) (p : Word) : (s.setSpsr m p).userXfer = s.userXfer := by
  cases m <;> rfl
@[simp] theorem State.setSpsr_fiqServed (m : Mode) (p : Word) : (s.setSpsr m p).fiqServed = s.fiqServed := by
  cases m <;> rfl
@[simp] theorem State.setSpsr_irqServed (m : Mode) (p : Word) : (s.setSpsr m p).irqServed = s.irqServed := by
  cases m <;> rfl
@[simp] theorem State.setSpsr_chain (m : Mode) (p : Word) : (s.setSpsr m p).chain = s.chain := by
  cases m <;> rfl
@[simp] theorem State.setSpsr_prefixes (m : Mode) (p : Word) : (s.setSpsr m p).prefixes = s.prefixes := by
  cases m <;> rfl
@[simp] theorem State.setSpsr_out (m : Mode) (p : Word) : (s.setSpsr m p).out = s.out := by
  cases m <;> rfl
@[simp] theorem State.setSpsr_etm (m : Mode) (p : Word) : (s.setSpsr m p).etm = s.etm := by
  cases m <;> rfl
@[simp] theorem State.setSpsr_freeCtr (m : Mode) (p : Word) : (s.setSpsr m p).freeCtr = s.freeCtr := by
  cases m <;> rfl
@[simp] theorem State.setSpsr_between (m : Mode) (p : Word) : (s.setSpsr m p).between = s.between := by
  cases m <;> rfl
@[simp] theorem State.setSpsr_env (m : Mode) (p : Word) : (s.setSpsr m p).env = s.env := by
  cases m <;> rfl

/-! ### setTcm -/

@[simp] theorem State.setTcm_regs (side : Side) (t : Tcm) : (s.setTcm side t).regs = s.regs := by
  cases side <;> rfl
@[simp] theorem State.setTcm_pc (side : Side) (t : Tcm) : (s.setTcm side t).pc = s.pc := by
  cases side <;> rfl
@[simp] theorem State.setTcm_cpsr (side : Side) (t : Tcm) : (s.setTcm side t).cpsr = s.cpsr := by
  cases side <;> rfl
@[simp] theorem State.setTcm_spsr (side : Side) (t : Tcm) : (s.setTcm side t).spsr = s.spsr := by
  cases side <;> rfl
@[simp] theorem State.setTcm_cp15 (side : Side) (t : Tcm) : (s.setTcm side t).cp15 = s.cp15 := by
  cases side <;> rfl
@[simp] theorem State.setTcm_dcc (side : Side) (t : Tcm) : (s.setTcm side t).dcc = s.dcc := by
  cases side <;> rfl
@[simp] theorem State.setTcm_dbg (side : Side) (t : Tcm) : (s.setTcm side t).dbg = s.dbg := by
  cases side <;> rfl
@[simp] theorem State.setTcm_ahb (side : Side) (t : Tcm) : (s.setTcm side t).ahb = s.ahb := by
  cases side <;> rfl
@[simp] theorem State.setTcm_fetch (side : Side) (t : Tcm) : (s.setTcm side t).fetch = s.fetch := by
  cases side <;> rfl
@[simp] theorem State.setTcm_standby (side : Side) (t : Tcm) : (s.setTcm side t).standby = s.standby := by
  cases side <;> rfl
@[simp] theorem State.setTcm_pins (side : Side) (t : Tcm) : (s.setTcm side t).pins = s.pins := by
  cases side <;> rfl
@[simp] theorem State.setTcm_cp (side : Side) (t : Tcm) : (s.setTcm side t).cp = s.cp := by
  cases side <;> rfl
@[simp] theorem State.setTcm_userXfer (side : Side) (t : Tcm) : (s.setTcm side t).userXfer = s.userXfer := by
  cases side <;> rfl
@[simp] theorem State.setTcm_fiqServed (side : Side) (t : Tcm) : (s.setTcm side t).fiqServed = s.fiqServed := by
  cases side <;> rfl
@[simp] theorem State.setTcm_irqServed (side : Side) (t : Tcm) : (s.setTcm side t).irqServed = s.irqServed := by
  cases side <;> rfl
@[simp] theorem State.setTcm_chain (side : Side) (t : Tcm) : (s.setTcm side t).chain = s.chain := by
  cases side <;> rfl
@[simp] theorem State.setTcm_prefixes (side : Side) (t : Tcm) : (s.setTcm side t).prefixes = s.prefixes := by
  cases side <;> rfl
@[simp] theorem State.setTcm_out (side : Side) (t : Tcm) : (s.setTcm side t).out = s.out := by
  cases side <;> rfl
@[simp] theorem State.setTcm_etm (side : Side) (t : Tcm) : (s.setTcm side t).etm = s.etm := by
  cases side <;> rfl
@[simp] theorem State.setTcm_freeCtr (side : Side) (t : Tcm) : (s.setTcm side t).freeCtr = s.freeCtr := by
  cases side <;> rfl
@[simp] theorem State.setTcm_between (side : Side) (t : Tcm) : (s.setTcm side t).between = s.between := by
  cases side <;> rfl
@[simp] theorem State.setTcm_env (side : Side) (t : Tcm) : (s.setTcm side t).env = s.env := by
  cases side <;> rfl

/-! ### setBist -/

@[simp] theorem State.setBist_regs (side : Side) (b : Bist) : (s.setBist side b).regs = s.regs := by
  cases side <;> rfl
@[simp] theorem State.setBist_pc (side : Side) (b : Bist) : (s.setBist side b).pc = s.pc := by
  cases side <;> rfl
@[simp] theorem State.setBist_cpsr (side : Side) (b : Bist) : (s.setBist side b).cpsr = s.cpsr := by
  cases side <;> rfl
@[simp] theorem State.setBist_spsr (side : Side) (b : Bist) : (s.setBist side b).spsr = s.spsr := by
  cases side <;> rfl
@[simp] theorem State.setBist_dcc (side : Side) (b : Bist) : (s.setBist side b).dcc = s.dcc := by
  cases side <;> rfl
@[simp] theorem State.setBist_dbg (side : Side) (b : Bist) : (s.setBist side b).dbg = s.dbg := by
  cases side <;> rfl
@[simp] theorem State.setBist_itcm (side : Side) (b : Bist) : (s.setBist side b).itcm = s.itcm := by
  cases side <;> rfl
@[simp] theorem State.setBist_dtcm (side : Side) (b : Bist) : (s.setBist side b).dtcm = s.dtcm := by
  cases side <;> rfl
@[simp] theorem State.setBist_ahb (side : Side) (b : Bist) : (s.setBist side b).ahb = s.ahb := by
  cases side <;> rfl
@[simp] theorem State.setBist_fetch (side : Side) (b : Bist) : (s.setBist side b).fetch = s.fetch := by
  cases side <;> rfl
@[simp] theorem State.setBist_standby (side : Side) (b : Bist) : (s.setBist side b).standby = s.standby := by
  cases side <;> rfl
@[simp] theorem State.setBist_pins (side : Side) (b : Bist) : (s.setBist side b).pins = s.pins := by
  cases side <;> rfl
@[simp] theorem State.setBist_cp (side : Side) (b : Bist) : (s.setBist side b).cp = s.cp := by
  cases side <;> rfl
@[simp] theorem State.setBist_userXfer (side : Side) (b : Bist) : (s.setBist side b).userXfer = s.userXfer := by
  cases side <;> rfl
@[simp] theorem State.setBist_fiqServed (side : Side) (b : Bist) : (s.setBist side b).fiqServed = s.fiqServed := by
  cases side <;> rfl
@[simp] theorem State.setBist_irqServed (side : Side) (b : Bist) : (s.setBist side b).irqServed = s.irqServed := by
  cases side <;> rfl
@[simp] theorem State.setBist_chain (side : Side) (b : Bist) : (s.setBist side b).chain = s.chain := by
  cases side <;> rfl
@[simp] theorem State.setBist_prefixes (side : Side) (b : Bist) : (s.setBist side b).prefixes = s.prefixes := by
  cases side <;> rfl
@[simp] theorem State.setBist_out (side : Side) (b : Bist) : (s.setBist side b).out = s.out := by
  cases side <;> rfl
@[simp] theorem State.setBist_etm (side : Side) (b : Bist) : (s.setBist side b).etm = s.etm := by
  cases side <;> rfl
@[simp] theorem State.setBist_freeCtr (side : Side) (b : Bist) : (s.setBist side b).freeCtr = s.freeCtr := by
  cases side <;> rfl
@[simp] theorem State.setBist_between (side : Side) (b : Bist) : (s.setBist side b).between = s.between := by
  cases side <;> rfl
@[simp] theorem State.setBist_env (side : Side) (b : Bist) : (s.setBist side b).env = s.env := by
  cases side <;> rfl

/-! ### tcmOff -/

@[simp] theorem State.tcmOff_regs (side : Side) : (s.tcmOff side).regs = s.regs := by
  cases side <;> rfl
@[simp] theorem State.tcmOff_pc (side : Side) : (s.tcmOff side).pc = s.pc := by
  cases side <;> rfl
@[simp] theorem State.tcmOff_cpsr (side : Side) : (s.tcmOff side).cpsr = s.cpsr := by
  cases side <;> rfl
@[simp] theorem State.tcmOff_spsr (side : Side) : (s.tcmOff side).spsr = s.spsr := by
  cases side <;> rfl
@[simp] theorem State.tcmOff_dcc (side : Side) : (s.tcmOff side).dcc = s.dcc := by
  cases side <;> rfl
@[simp] theorem State.tcmOff_dbg (side : Side) : (s.tcmOff side).dbg = s.dbg := by
  cases side <;> rfl
@[simp] theorem State.tcmOff_itcm (side : Side) : (s.tcmOff side).itcm = s.itcm := by
  cases side <;> rfl
@[simp] theorem State.tcmOff_dtcm (side : Side) : (s.tcmOff side).dtcm = s.dtcm := by
  cases side <;> rfl
@[simp] theorem State.tcmOff_ahb (side : Side) : (s.tcmOff side).ahb = s.ahb := by
  cases side <;> rfl
@[simp] theorem State.tcmOff_fetch (side : Side) : (s.tcmOff side).fetch = s.fetch := by
  cases side <;> rfl
@[simp] theorem State.tcmOff_standby (side : Side) : (s.tcmOff side).standby = s.standby := by
  cases side <;> rfl
@[simp] theorem State.tcmOff_pins (side : Side) : (s.tcmOff side).pins = s.pins := by
  cases side <;> rfl
@[simp] theorem State.tcmOff_cp (side : Side) : (s.tcmOff side).cp = s.cp := by
  cases side <;> rfl
@[simp] theorem State.tcmOff_userXfer (side : Side) : (s.tcmOff side).userXfer = s.userXfer := by
  cases side <;> rfl
@[simp] theorem State.tcmOff_fiqServed (side : Side) : (s.tcmOff side).fiqServed = s.fiqServed := by
  cases side <;> rfl
@[simp] theorem State.tcmOff_irqServed (side : Side) : (s.tcmOff side).irqServed = s.irqServed := by
  cases side <;> rfl
@[simp] theorem State.tcmOff_chain (side : Side) : (s.tcmOff side).chain = s.chain := by
  cases side <;> rfl
@[simp] theorem State.tcmOff_prefixes (side : Side) : (s.tcmOff side).prefixes = s.prefixes := by
  cases side <;> rfl
@[simp] theorem State.tcmOff_out (side : Side) : (s.tcmOff side).out = s.out := by
  cases side <;> rfl
@[simp] theorem State.tcmOff_etm (side : Side) : (s.tcmOff side).etm = s.etm := by
  cases side <;> rfl
@[simp] theorem State.tcmOff_freeCtr (side : Side) : (s.tcmOff side).freeCtr = s.freeCtr := by
  cases side <;> rfl
@[simp] theorem State.tcmOff_between (side : Side) : (s.tcmOff side).between = s.between := by
  cases side <;> rfl
@[simp] theorem State.tcmOff_env (side : Side) : (s.tcmOff side).env = s.env := by
  cases side <;> rfl

/-! ### setReg? -/

@[simp] theorem State.setReg_opt_pc (r : Reg) (v : Option Word) : (s.setReg? r v).pc = s.pc := by
  cases v <;> rfl
@[simp] theorem State.setReg_opt_cpsr (r : Reg) (v : Option Word) : (s.setReg? r v).cpsr = s.cpsr := by
  cases v <;> rfl
@[simp] theorem State.setReg_opt_spsr (r : Reg) (v : Option Word) : (s.setReg? r v).spsr = s.spsr := by
  cases v <;> rfl
@[simp] theorem State.setReg_opt_cp15 (r : Reg) (v : Option Word) : (s.setReg? r v).cp15 = s.cp15 := by
  cases v <;> rfl
@[simp] theorem State.setReg_opt_dcc (r : Reg) (v : Option Word) : (s.setReg? r v).dcc = s.dcc := by
  cases v <;> rfl
@[simp] theorem State.setReg_opt_dbg (r : Reg) (v : Option Word) : (s.setReg? r v).dbg = s.dbg := by
  cases v <;> rfl
@[simp] theorem State.setReg_opt_itcm (r : Reg) (v : Option Word) : (s.setReg? r v).itcm = s.itcm := by
  cases v <;> rfl
@[simp] theorem State.setReg_opt_dtcm (r : Reg) (v : Option Word) : (s.setReg? r v).dtcm = s.dtcm := by
  cases v <;> rfl
@[simp] theorem State.setReg_opt_ahb (r : Reg) (v : Option Word) : (s.setReg? r v).ahb = s.ahb := by
  cases v <;> rfl
@[simp] theorem State.setReg_opt_fetch (r : Reg) (v : Option Word) : (s.setReg? r v).fetch = s.fetch := by
  cases v <;> rfl
@[simp] theorem State.setReg_opt_standby (r : Reg) (v : Option Word) : (s.setReg? r v).standby = s.standby := by
  cases v <;> rfl
@[simp] theorem State.setReg_opt_pins (r : Reg) (v : Option Word) : (s.setReg? r v).pins = s.pins := by
  cases v <;> rfl
@[simp] theorem State.setReg_opt_cp (r : Reg) (v : Option Word) : (s.setReg? r v).cp = s.cp := by
  cases v <;> rfl
@[simp] theorem State.setReg_opt_userXfer (r : Reg) (v : Option Word) : (s.setReg? r v).userXfer = s.userXfer := by
  cases v <;> rfl
@[simp] theorem State.setReg_opt_fiqServed (r : Reg) (v : Option Word) : (s.setReg? r v).fiqServed = s.fiqServed := by
  cases v <;> rfl
@[simp] theorem State.setReg_opt_irqServed (r : Reg) (v : Option Word) : (s.setReg? r v).irqServed = s.irqServed := by
  cases v <;> rfl
@[simp] theorem State.setReg_opt_chain (r : Reg) (v : Option Word) : (s.setReg? r v).chain = s.chain := by
  cases v <;> rfl
@[simp] theorem State.setReg_opt_prefixes (r : Reg) (v : Option Word) : (s.setReg? r v).prefixes = s.prefixes := by
  cases v <;> rfl
@[simp] theorem State.setReg_opt_out (r : Reg) (v : Option Word) : (s.setReg? r v).out = s.out := by
  cases v <;> rfl
@[simp] theorem State.setReg_opt_etm (r : Reg) (v : Option Word) : (s.setReg? r v).etm = s.etm := by
  cases v <;> rfl
@[simp] theorem State.setReg_opt_freeCtr (r : Reg) (v : Option Word) : (s.setReg? r v).freeCtr = s.freeCtr := by
  cases v <;> rfl
@[simp] theorem State.setReg_opt_between (r : Reg) (v : Option Word) : (s.setReg? r v).between = s.between := by
  cases v <;> rfl
@[simp] theorem State.setReg_opt_env (r : Reg) (v : Option Word) : (s.setReg? r v).env = s.env := by
  cases v <;> rfl

/-! ### noteWatch -/

@[simp] theorem State.noteWatch_regs : s.noteWatch.regs = s.regs := by
  unfold State.noteWatch; split <;> rfl
@[simp] theorem State.noteWatch_pc : s.noteWatch.pc = s.pc := by
  unfold State.noteWatch; split <;> rfl
@[simp] theorem State.noteWatch_cpsr : s.noteWatch.cpsr = s.cpsr := by
  unfold State.noteWatch; split <;> rfl
@[simp] theorem State.noteWatch_spsr : s.noteWatch.spsr = s.spsr := by
  unfold State.noteWatch; split <;> rfl
@[simp] theorem State.noteWatch_cp15 : s.noteWatch.cp15 = s.cp15 := by
  unfold State.noteWatch; split <;> rfl
@[simp] theorem State.noteWatch_dcc : s.noteWatch.dcc = s.dcc := by
  unfold State.noteWatch; split <;> rfl
@[simp] theorem State.noteWatch_itcm : s.noteWatch.itcm = s.itcm := by
  unfold State.noteWatch; split <;> rfl
@[simp] theorem State.noteWatch_dtcm : s.noteWatch.dtcm = s.dtcm := by
  unfold State.noteWatch; split <;> rfl
@[simp] theorem State.noteWatch_ahb : s.noteWatch.ahb = s.ahb := by
  unfold State.noteWatch; split <;> rfl
@[simp] theorem State.noteWatch_fetch : s.noteWatch.fetch = s.fetch := by
  unfold State.noteWatch; split <;> rfl
@[simp] theorem State.noteWatch_standby : s.noteWatch.standby = s.standby := by
  unfold State.noteWatch; split <;> rfl
@[simp] theorem State.noteWatch_pins : s.noteWatch.pins = s.pins := by
  unfold State.noteWatch; split <;> rfl
@[simp] theorem State.noteWatch_cp : s.noteWatch.cp = s.cp := by
  unfold State.noteWatch; split <;> rfl
@[simp] theorem State.noteWatch_userXfer : s.noteWatch.userXfer = s.userXfer := by
  unfold State.noteWatch; split <;> rfl
@[simp] theorem State.noteWatch_fiqServed : s.noteWatch.fiqServed = s.fiqServed := by
  unfold State.noteWatch; split <;> rfl
@[simp] theorem State.noteWatch_irqServed : s.noteWatch.irqServed = s.irqServed := by
  unfold State.noteWatch; split <;> rfl
@[simp] theorem State.noteWatch_chain : s.noteWatch.chain = s.chain := by
  unfold State.noteWatch; split <;> rfl
@[simp] theorem State.noteWatch_prefixes : s.noteWatch.prefixes = s.prefixes := by
  unfold State.noteWatch; split <;> rfl
@[simp] theorem State.noteWatch_out : s.noteWatch.out = s.out := by
  unfold State.noteWatch; split <;> rfl
@[simp] theorem State.noteWatch_etm : s.noteWatch.etm = s.etm := by
  unfold State.noteWatch; split <;> rfl
@[simp] theorem State.noteWatch_freeCtr : s.noteWatch.freeCtr = s.freeCtr := by
  unfold State.noteWatch; split <;> rfl
@[simp] theorem State.noteWatch_between : s.noteWatch.between = s.between := by
  unfold State.noteWatch; split <;> rfl
@[simp] theorem State.noteWatch_env : s.noteWatch.env = s.env := by
  unfold State.noteWatch; split <;> rfl

/-! ### drainTcmOne -/

@[simp] theorem State.drainTcmOne_regs (side : Side) : (s.drainTcmOne side).regs = s.regs := by
  unfold State.drainTcmOne; split <;> first | rfl | (cases side <;> rfl)
@[simp] theorem State.drainTcmOne_pc (side : Side) : (s.drainTcmOne side).pc = s.pc := by
  unfold State.drainTcmOne; split <;> first | rfl | (cases side <;> rfl)
@[simp] theorem State.drainTcmOne_cpsr (side : Side) : (s.drainTcmOne side).cpsr = s.cpsr := by
  unfold State.drainTcmOne; split <;> first | rfl | (cases side <;> rfl)
@[simp] theorem State.drainTcmOne_spsr (side : Side) : (s.drainTcmOne side).spsr = s.spsr := by
  unfold State.drainTcmOne; split <;> first | rfl | (cases side <;> rfl)
@[simp] theorem State.drainTcmOne_cp15 (side : Side) : (s.drainTcmOne side).cp15 = s.cp15 := by
  unfold State.drainTcmOne; split <;> first | rfl | (cases side <;> rfl)
@[simp] theorem State.drainTcmOne_dcc (side : Side) : (s.drainTcmOne side).dcc = s.dcc := by
  unfold State.drainTcmOne; split <;> first | rfl | (cases side <;> rfl)
@[simp] theorem State.drainTcmOne_dbg (side : Side) : (s.drainTcmOne side).dbg = s.dbg := by
  unfold State.drainTcmOne; split <;> first | rfl | (cases side <;> rfl)
@[simp] theorem State.drainTcmOne_ahb (side : Side) : (s.drainTcmOne side).ahb = s.ahb := by
  unfold State.drainTcmOne; split <;> first | rfl | (cases side <;> rfl)
@[simp] theorem State.drainTcmOne_fetch (side : Side) : (s.drainTcmOne side).fetch = s.fetch := by
  unfold State.drainTcmOne; split <;> first | rfl | (cases side <;> rfl)
@[simp] theorem State.drainTcmOne_standby (side : Side) : (s.drainTcmOne side).standby = s.standby := by
  unfold State.drainTcmOne; split <;> first | rfl | (cases side <;> rfl)
@[simp] theorem State.drainTcmOne_pins (side : Side) : (s.drainTcmOne side).pins = s.pins := by
  unfold State.drainTcmOne; split <;> first | rfl | (cases side <;> rfl)
@[simp] theorem State.drainTcmOne_cp (side : Side) : (s.drainTcmOne side).cp = s.cp := by
  unfold State.drainTcmOne; split <;> first | rfl | (cases side <;> rfl)
@[simp] theorem State.drainTcmOne_userXfer (side : Side) : (s.drainTcmOne side).userXfer = s.userXfer := by
  unfold State.drainTcmOne; split <;> first | rfl | (cases side <;> rfl)
@[simp] theorem State.drainTcmOne_fiqServed (side : Side) : (s.drainTcmOne side).fiqServed = s.fiqServed := by
  unfold State.drainTcmOne; split <;> first | rfl | (cases side <;> rfl)
@[simp] theorem State.drainTcmOne_irqServed (side : Side) : (s.drainTcmOne side).irqServed = s.irqServed := by
  unfold State.drainTcmOne; split <;> first | rfl | (cases side <;> rfl)
@[simp] theorem State.drainTcmOne_chain (side : Side) : (s.drainTcmOne side).chain = s.chain := by
  unfold State.drainTcmOne; split <;> first | rfl | (cases side <;> rfl)
@[simp] theorem State.drainTcmOne_prefixes (side : Side) : (s.drainTcmOne side).prefixes = s.prefixes := by
  unfold State.drainTcmOne; split <;> first | rfl | (cases side <;> rfl)
@[simp] theorem State.drainTcmOne_out (side : Side) : (s.drainTcmOne side).out = s.out := by
  unfold State.drainTcmOne; split <;> first | rfl | (cases side <;> rfl)
@[simp] theorem State.drainTcmOne_etm (side : Side) : (s.drainTcmOne side).etm = s.etm := by
  unfold State.drainTcmOne; split <;> first | rfl | (cases side <;> rfl)
@[simp] theorem State.drainTcmOne_freeCtr (side : Side) : (s.drainTcmOne side).freeCtr = s.freeCtr := by
  unfold State.drainTcmOne; split <;> first | rfl | (cases side <;> rfl)
@[simp] theorem State.drainTcmOne_between (side : Side) : (s.drainTcmOne side).between = s.between := by
  unfold State.drainTcmOne; split <;> first | rfl | (cases side <;> rfl)
@[simp] theorem State.drainTcmOne_env (side : Side) : (s.drainTcmOne side).env = s.env := by
  unfold State.drainTcmOne; split <;> first | rfl | (cases side <;> rfl)

/-! ### drainAhbOne -/

@[simp] theorem State.drainAhbOne_regs : s.drainAhbOne.regs = s.regs := by
  unfold State.drainAhbOne; split <;> rfl
@[simp] theorem State.drainAhbOne_pc : s.drainAhbOne.pc = s.pc := by
  unfold State.drainAhbOne; split <;> rfl
@[simp] theorem State.drainAhbOne_cpsr : s.drainAhbOne.cpsr = s.cpsr := by
  unfold State.drainAhbOne; split <;> rfl
@[simp] theorem State.drainAhbOne_spsr : s.drainAhbOne.spsr = s.spsr := by
  unfold State.drainAhbOne; split <;> rfl
@[simp] theorem State.drainAhbOne_cp15 : s.drainAhbOne.cp15 = s.cp15 := by
  unfold State.drainAhbOne; split <;> rfl
@[simp] theorem State.drainAhbOne_dcc : s.drainAhbOne.dcc = s.dcc := by
  unfold State.drainAhbOne; split <;> rfl
@[simp] theorem State.drainAhbOne_dbg : s.drainAhbOne.dbg = s.dbg := by
  unfold State.drainAhbOne; split <;> rfl
@[simp] theorem State.drainAhbOne_itcm : s.drainAhbOne.itcm = s.itcm := by
  unfold State.drainAhbOne; split <;> rfl
@[simp] theorem State.drainAhbOne_dtcm : s.drainAhbOne.dtcm = s.dtcm := by
  unfold State.drainAhbOne; split <;> rfl
@[simp] theorem State.drainAhbOne_fetch : s.drainAhbOne.fetch = s.fetch := by
  unfold State.drainAhbOne; split <;> rfl
@[simp] theorem State.drainAhbOne_standby : s.drainAhbOne.standby = s.standby := by
  unfold State.drainAhbOne; split <;> rfl
@[simp] theorem State.drainAhbOne_pins : s.drainAhbOne.pins = s.pins := by
  unfold State.drainAhbOne; split <;> rfl
@[simp] theorem State.drainAhbOne_cp : s.drainAhbOne.cp = s.cp := by
  unfold State.drainAhbOne; split <;> rfl
@[simp] theorem State.drainAhbOne_userXfer : s.drainAhbOne.userXfer = s.userXfer := by
  unfold State.drainAhbOne; split <;> rfl
@[simp] theorem State.drainAhbOne_fiqServed : s.drainAhbOne.fiqServed = s.fiqServed := by
  unfold State.drainAhbOne; split <;> rfl
@[simp] theorem State.drainAhbOne_irqServed : s.drainAhbOne.irqServed = s.irqServed := by
  unfold State.drainAhbOne; split <;> rfl
@[simp] theorem State.drainAhbOne_chain : s.drainAhbOne.chain = s.chain := by
  unfold State.drainAhbOne; split <;> rfl
@[simp] theorem State.drainAhbOne_prefixes : s.drainAhbOne.prefixes = s.prefixes := by
  unfold State.drainAhbOne; split <;> rfl
@[simp] theorem State.drainAhbOne_out : s.drainAhbOne.out = s.out := by
  unfold State.drainAhbOne; split <;> rfl
@[simp] theorem State.drainAhbOne_etm : s.drainAhbOne.etm = s.etm := by
  unfold State.drainAhbOne; split <;> rfl
@[simp] theorem State.drainAhbOne_freeCtr : s.drainAhbOne.freeCtr = s.freeCtr := by
  unfold State.drainAhbOne; split <;> rfl
@[simp] theorem State.drainAhbOne_between : s.drainAhbOne.between = s.between := by
  unfold State.drainAhbOne; split <;> rfl
@[simp] theorem State.drainAhbOne_env : s.drainAhbOne.env = s.env := by
  unfold State.drainAhbOne; split <;> rfl

/-! ### noteCycle -/

@[simp] theorem State.noteCycle_regs (x : Seen) : (s.noteCycle x).regs = s.regs := rfl
@[simp] theorem State.noteCycle_pc (x : Seen) : (s.noteCycle x).pc = s.pc := rfl
@[simp] theorem State.noteCycle_cpsr (x : Seen) : (s.noteCycle x).cpsr = s.cpsr := rfl
@[simp] theorem State.noteCycle_spsr (x : Seen) : (s.noteCycle x).spsr = s.spsr := rfl
@[simp] theorem State.noteCycle_cp15 (x : Seen) : (s.noteCycle x).cp15 = s.cp15 := rfl
@[simp] theorem State.noteCycle_dcc (x : Seen) : (s.noteCycle x).dcc = s.dcc := rfl
@[simp] theorem State.noteCycle_dbg (x : Seen) : (s.noteCycle x).dbg = s.dbg := rfl
@[simp] theorem State.noteCycle_itcm (x : Seen) : (s.noteCycle x).itcm = s.itcm := rfl
@[simp] theorem State.noteCycle_dtcm (x : Seen) : (s.noteCycle x).dtcm = s.dtcm := rfl
@[simp] theorem State.noteCycle_ahb (x : Seen) : (s.noteCycle x).ahb = s.ahb := rfl
@[simp] theorem State.noteCycle_fetch (x : Seen) : (s.noteCycle x).fetch = s.fetch := rfl
@[simp] theorem State.noteCycle_standby (x : Seen) : (s.noteCycle x).standby = s.standby := rfl
@[simp] theorem State.noteCycle_pins (x : Seen) : (s.noteCycle x).pins = s.pins := rfl
@[simp] theorem State.noteCycle_cp (x : Seen) : (s.noteCycle x).cp = s.cp := rfl
@[simp] theorem State.noteCycle_userXfer (x : Seen) : (s.noteCycle x).userXfer = s.userXfer := rfl
@[simp] theorem State.noteCycle_fiqServed (x : Seen) : (s.noteCycle x).fiqServed = s.fiqServed := rfl
@[simp] theorem State.noteCycle_irqServed (x : Seen) : (s.noteCycle x).irqServed = s.irqServed := rfl
@[simp] theorem State.noteCycle_prefixes (x : Seen) : (s.noteCycle x).prefixes = s.prefixes := rfl
@[simp] theorem State.noteCycle_etm (x : Seen) : (s.noteCycle x).etm = s.etm := rfl
@[simp] theorem State.noteCycle_freeCtr (x : Seen) : (s.noteCycle x).freeCtr = s.freeCtr := rfl
@[simp] theorem State.noteCycle_between (x : Seen) : (s.noteCycle x).between = s.between := rfl
@[simp] theorem State.noteCycle_env (x : Seen) : (s.noteCycle x).env = s.env := rfl

/-! ### abandonCp -/

@[simp] theorem State.abandonCp_regs : s.abandonCp.regs = s.regs := by
  unfold State.abandonCp; split <;> rfl
@[simp] theorem State.abandonCp_pc : s.abandonCp.pc = s.pc := by
  unfold State.abandonCp; split <;> rfl
@[simp] theorem State.abandonCp_cpsr : s.abandonCp.cpsr = s.cpsr := by
  unfold State.abandonCp; split <;> rfl
@[simp] theorem State.abandonCp_spsr : s.abandonCp.spsr = s.spsr := by
  unfold State.abandonCp; split <;> rfl
@[simp] theorem State.abandonCp_cp15 : s.abandonCp.cp15 = s.cp15 := by
  unfold State.abandonCp; split <;> rfl
@[simp] theorem State.abandonCp_dcc : s.abandonCp.dcc = s.dcc := by
  unfold State.abandonCp; split <;> rfl
@[simp] theorem State.abandonCp_dbg : s.abandonCp.dbg = s.dbg := by
  unfold State.abandonCp; split <;> rfl
@[simp] theorem State.abandonCp_itcm : s.abandonCp.itcm = s.itcm := by
  unfold State.abandonCp; split <;> rfl
@[simp] theorem State.abandonCp_dtcm : s.abandonCp.dtcm = s.dtcm := by
  unfold State.abandonCp; split <;> rfl
@[simp] theorem State.abandonCp_ahb : s.abandonCp.ahb = s.ahb := by
  unfold State.abandonCp; split <;> rfl
@[simp] theorem State.abandonCp_fetch : s.abandonCp.fetch = s.fetch := by
  unfold State.abandonCp; split <;> rfl
@[simp] theorem State.abandonCp_standby : s.abandonCp.standby = s.standby := by
  unfold State.abandonCp; split <;> rfl
@[simp] theorem State.abandonCp_pins : s.abandonCp.pins = s.pins := by
  unfold State.abandonCp; split <;> rfl
@[simp] theorem State.abandonCp_userXfer : s.abandonCp.userXfer = s.userXfer := by
  unfold State.abandonCp; split <;> rfl
@[simp] theorem State.abandonCp_fiqServed : s.abandonCp.fiqServed = s.fiqServed := by
  unfold State.abandonCp; split <;> rfl
@[simp] theorem State.abandonCp_irqServed : s.abandonCp.irqServed = s.irqServed := by
  unfold State.abandonCp; split <;> rfl
@[simp] theorem State.abandonCp_chain : s.abandonCp.chain = s.chain := by
  unfold State.abandonCp; split <;> rfl
@[simp] theorem State.abandonCp_prefixes : s.abandonCp.prefixes = s.prefixes := by
  unfold State.abandonCp; split <;> rfl
@[simp] theorem State.abandonCp_out : s.abandonCp.out = s.out := by
  unfold State.abandonCp; split <;> rfl
@[simp] theorem State.abandonCp_etm : s.abandonCp.etm = s.etm := by
  unfold State.abandonCp; split <;> rfl
@[simp] theorem State.abandonCp_freeCtr : s.abandonCp.freeCtr = s.freeCtr := by
  unfold State.abandonCp; split <;> rfl
@[simp] theorem State.abandonCp_between : s.abandonCp.between = s.between := by
  unfold State.abandonCp; split <;> rfl
@[simp] theorem State.abandonCp_env : s.abandonCp.env = s.env := by
  unfold State.abandonCp; split <;> rfl

/-! ### drainTcm -/

@[simp] theorem State.drainTcm_regs (side : Side) : (s.drainTcm side).regs = s.regs := by
  cases side <;> rfl
@[simp] theorem State.drainTcm_pc (side : Side) : (s.drainTcm side).pc = s.pc := by
  cases side <;> rfl
@[simp] theorem State.drainTcm_cpsr (side : Side) : (s.drainTcm side).cpsr = s.cpsr := by
  cases side <;> rfl
@[simp] theorem State.drainTcm_spsr (side : Side) : (s.drainTcm side).spsr = s.spsr := by
  cases side <;> rfl
@[simp] theorem State.drainTcm_cp15 (side : Side) : (s.drainTcm side).cp15 = s.cp15 := by
  cases side <;> rfl
@[simp] theorem State.drainTcm_dcc (side : Side) : (s.drainTcm side).dcc = s.dcc := by
  cases side <;> rfl
@[simp] theorem State.drainTcm_dbg (side : Side) : (s.drainTcm side).dbg = s.dbg := by
  cases side <;> rfl
@[simp] theorem State.drainTcm_ahb (side : Side) : (s.drainTcm side).ahb = s.ahb := by
  cases side <;> rfl
@[simp] theorem State.drainTcm_fetch (side : Side) : (s.drainTcm side).fetch = s.fetch := by
  cases side <;> rfl
@[simp] theorem State.drainTcm_standby (side : Side) : (s.drainTcm side).standby = s.standby := by
  cases side <;> rfl
@[simp] theorem State.drainTcm_pins (side : Side) : (s.drainTcm side).pins = s.pins := by
  cases side <;> rfl
@[simp] theorem State.drainTcm_cp (side : Side) : (s.drainTcm side).cp = s.cp := by
  cases side <;> rfl
@[simp] theorem State.drainTcm_userXfer (side : Side) : (s.drainTcm side).userXfer = s.userXfer := by
  cases side <;> rfl
@[simp] theorem State.drainTcm_fiqServed (side : Side) : (s.drainTcm side).fiqServed = s.fiqServed := by
  cases side <;> rfl
@[simp] theorem State.drainTcm_irqServed (side : Side) : (s.drainTcm side).irqServed = s.irqServed := by
  cases side <;> rfl
@[simp] theorem State.drainTcm_chain (side : Side) : (s.drainTcm side).chain = s.chain := by
  cases side <;> rfl
@[simp] theorem State.drainTcm_prefixes (side : Side) : (s.drainTcm side).prefixes = s.prefixes := by
  cases side <;> rfl
@[simp] theorem State.drainTcm_out (side : Side) : (s.drainTcm side).out = s.out := by
  cases side <;> rfl
@[simp] theorem State.drainTcm_etm (side : Side) : (s.drainTcm side).etm = s.etm := by
  cases side <;> rfl
@[simp] theorem State.drainTcm_freeCtr (side : Side) : (s.drainTcm side).freeCtr = s.freeCtr := by
  cases side <;> rfl
@[simp] theorem State.drainTcm_between (side : Side) : (s.drainTcm side).between = s.between := by
  cases side <;> rfl
@[simp] theorem State.drainTcm_env (side : Side) : (s.drainTcm side).env = s.env := by
  cases side <;> rfl

/-! ### What the accessors give after an update -/

@[simp] theorem State.setCpsr_mode (p : Word) : (s.setCpsr p).mode = (Mode.ofBits (Psr.m p)).getD .usr := rfl
@[simp] theorem State.setCpsr_thumb (p : Word) : (s.setCpsr p).thumb = Psr.t p := rfl
@[simp] theorem State.setReg_mode (r : Reg) (v : Word) : (s.setReg r v).mode = s.mode := rfl
@[simp] theorem State.setReg_nextPc (r : Reg) (v : Word) : (s.setReg r v).nextPc = s.nextPc := rfl
@[simp] theorem State.setBankReg_nextPc (m : Mode) (r : Reg) (v : Word) : (s.setBankReg m r v).nextPc = s.nextPc := rfl
@[simp] theorem State.notePrefix_nextPc (v : Word) : (s.notePrefix v).nextPc = s.nextPc := rfl
@[simp] theorem State.dropPrefix_nextPc : s.dropPrefix.nextPc = s.nextPc := rfl
@[simp] theorem State.dropPrefix_mode : s.dropPrefix.mode = s.mode := rfl
@[simp] theorem State.takeWord_value : s.takeWord.1 = Config.freeWord s.freeCtr := rfl
@[simp] theorem State.takeBool_value : s.takeBool.1 = Config.freeBool s.freeCtr := rfl
@[simp] theorem State.setTcm_tcm (side : Side) (t : Tcm) : (s.setTcm side t).tcm side = t := by cases side <;> rfl
@[simp] theorem State.setBist_bist (side : Side) (b : Bist) : (s.setBist side b).bist side = b := by cases side <;> rfl

end Sys2Proof.Machine
end

