-- ==== Sys2Proof/Laws/Bus.lean ====
section
/-! SUPPORT. What a data access can do, said once: MemRead and MemWrite where they complete. -/

namespace Sys2Proof.Machine

/-! ## States that differ in the memories only -/

/-- A state that differs from another in the memories, their buffers, the output pins and the chain latch alone. -/
structure MemoryOnly (s t : State) : Prop where
  core : t = { s with itcm := t.itcm, dtcm := t.dtcm, ahb := t.ahb, chain := t.chain, out := t.out }
  itcmErr : t.itcm.err = s.itcm.err
  dtcmErr : t.dtcm.err = s.dtcm.err
  ahbErr : t.ahb.err = s.ahb.err
  inForm : s.memoryInForm → t.memoryInForm

/-- Nothing changed. -/
theorem MemoryOnly.refl (s : State) : MemoryOnly s s := ⟨rfl, rfl, rfl, rfl, id⟩

/-- One change after another. -/
theorem MemoryOnly.trans {s t u : State} (h : MemoryOnly s t) (k : MemoryOnly t u) : MemoryOnly s u := by
  refine ⟨?_, k.itcmErr.trans h.itcmErr, k.dtcmErr.trans h.dtcmErr, k.ahbErr.trans h.ahbErr, k.inForm ∘ h.inForm⟩
  rw [k.core, h.core]

/-- The registers of the core and the system are untouched. -/
theorem MemoryOnly.sameSystem {s t : State} (h : MemoryOnly s t) : SameSystem s t := by
  have hc := h.core
  constructor <;> first | exact h.itcmErr | exact h.dtcmErr | exact h.ahbErr | (rw [hc])

/-- The general registers are untouched. -/
theorem MemoryOnly.regs {s t : State} (h : MemoryOnly s t) : t.regs = s.regs := by rw [h.core]

/-- The CPSR is untouched. -/
theorem MemoryOnly.cpsr {s t : State} (h : MemoryOnly s t) : t.cpsr = s.cpsr := by rw [h.core]

/-- The pc is untouched. -/
theorem MemoryOnly.pc {s t : State} (h : MemoryOnly s t) : t.pc = s.pc := by rw [h.core]

/-- The instruction side is untouched. -/
theorem MemoryOnly.fetch {s t : State} (h : MemoryOnly s t) : t.fetch = s.fetch := by rw [h.core]

/-- The place behind an address is the same. -/
theorem MemoryOnly.placeOf {s t : State} (h : MemoryOnly s t) (a : Word) (k : Nat) : t.placeOf a k = s.placeOf a k := by
  rw [h.core]; rfl

/-- The lane a store writes is the same. -/
theorem MemoryOnly.laneAt {s t : State} (h : MemoryOnly s t) (size : Size) (a : Word) (p : Place) :
    t.laneAt size a p = s.laneAt size a p := by
  rw [h.core]; rfl

/-- Draining a TCM changes its memory and its buffer alone. -/
theorem MemoryOnly.drainTcm (s : State) (side : Side) : MemoryOnly s (s.drainTcm side) := by
  cases side
  · exact ⟨rfl, Tcm.drain_err _, rfl, rfl, fun h => ⟨Tcm.drain_inForm h.1, h.2⟩⟩
  · exact ⟨rfl, rfl, Tcm.drain_err _, rfl, fun h => ⟨h.1, Tcm.drain_inForm h.2.1, h.2.2⟩⟩

/-- Draining the AHB buffer changes the memory and the buffer alone. -/
theorem MemoryOnly.drainAhb (s : State) : MemoryOnly s s.drainAhb :=
  ⟨rfl, rfl, rfl, Ahb.drain_err _, fun h => ⟨h.1, h.2.1, Ahb.drain_wf h.2.2⟩⟩

/-- A TCM access that waits for the buffer or not changes that TCM's memory and buffer alone. -/
theorem MemoryOnly.waited (s : State) (side : Side) (order : Bool) :
    MemoryOnly s (s.setTcm side ((s.tcm side).waited order)) := by
  cases side
  · exact ⟨rfl, Tcm.waited_err _ _, rfl, rfl, fun h => ⟨Tcm.waited_inForm _ h.1, h.2⟩⟩
  · exact ⟨rfl, rfl, Tcm.waited_err _ _, rfl, fun h => ⟨h.1, Tcm.waited_inForm _ h.2.1, h.2.2⟩⟩

/-- What a cycle leaves on the outputs is no memory and no register. -/
theorem MemoryOnly.noteCycle (s : State) (x : Seen) : MemoryOnly s (s.noteCycle x) := ⟨rfl, rfl, rfl, rfl, id⟩

/-- It changes no byte that the core can read. -/
theorem byteAt_waited (s : State) (side : Side) (order : Bool) :
    SameMemory s (s.setTcm side ((s.tcm side).waited order)) := by
  intro p
  cases side <;> cases p <;> simp [State.byteAt, State.setTcm, State.tcm]

/-- A drain changes no byte that the core can read. -/
theorem byteAt_drainTcm (s : State) (side : Side) : SameMemory s (s.drainTcm side) := by
  intro p
  cases side <;> cases p <;> simp [State.drainTcm, State.byteAt, State.setTcm, State.tcm]

/-- A drain of the AHB buffer changes no byte that the core can read. -/
theorem byteAt_drainAhb (s : State) : SameMemory s s.drainAhb := by
  intro p
  cases p <;> simp [State.byteAt]

/-- What a write forces out of the buffers is no change of what memory holds. -/
theorem MemoryOnly.forcedBy (s : State) (a : Word) : MemoryOnly s (s.forcedBy a) := by
  unfold State.forcedBy
  simp only
  split
  · exact .waited s _ _
  · split
    · exact .refl s
    · exact .drainAhb s

/-- It changes no byte that the core can read. -/
theorem byteAt_forcedBy (s : State) (a : Word) : SameMemory s (s.forcedBy a) := by
  unfold State.forcedBy
  simp only
  split
  · exact byteAt_waited s _ _
  · split
    · exact fun _ => rfl
    · exact byteAt_drainAhb s

/-! ## Other agents (R60, R74) -/

/-- No batch is waiting: nothing happens between two accesses. -/
@[simp] theorem State.betweenAccesses_nil {s : State} (h : s.between = []) : s.betweenAccesses = s := by
  unfold State.betweenAccesses
  rw [h]

/-- One entry of a TCM write buffer drains: that TCM's memory and buffer alone change. -/
theorem MemoryOnly.drainTcmOne (s : State) (side : Side) : MemoryOnly s (s.drainTcmOne side) := by
  unfold State.drainTcmOne
  split
  · exact .refl s
  · cases side
    · exact ⟨rfl, Tcm.drainOne_err _, rfl, rfl, fun h => ⟨Tcm.drainOne_inForm h.1, h.2⟩⟩
    · exact ⟨rfl, rfl, Tcm.drainOne_err _, rfl, fun h => ⟨h.1, Tcm.drainOne_inForm h.2.1, h.2.2⟩⟩

/-- One word of the AHB write buffer is written: the AHB's memory and buffer alone change. -/
theorem MemoryOnly.drainAhbOne (s : State) : MemoryOnly s s.drainAhbOne := by
  unfold State.drainAhbOne
  split
  · exact .refl s
  · exact ⟨rfl, rfl, rfl, Ahb.drainOne_err _, fun h => ⟨h.1, h.2.1, Ahb.drainOne_wf h.2.2⟩⟩

/-- It changes no byte that the core can read. -/
theorem byteAt_drainTcmOne (s : State) (side : Side) : SameMemory s (s.drainTcmOne side) := by
  intro p
  unfold State.drainTcmOne
  split
  · rfl
  · cases side <;> cases p <;> simp [State.byteAt, State.setTcm, State.tcm]

/-- It changes no byte that the core can read. -/
theorem byteAt_drainAhbOne (s : State) : SameMemory s s.drainAhbOne := by
  intro p
  unfold State.drainAhbOne
  split
  · rfl
  · cases p <;> simp [State.byteAt]

/-- DMA writes one TCM. -/
theorem MemoryOnly.dmaWrite (s : State) (side : Side) (offset : Nat) (b : Byte) :
    MemoryOnly s (dmaWrite side offset b s) := by
  unfold Machine.dmaWrite
  split
  · cases side
    · exact ⟨rfl, rfl, rfl, rfl, fun h => ⟨⟨Memory.write_wf _ _ h.1.1, insertNat_rising _ h.1.2⟩, h.2⟩⟩
    · exact ⟨rfl, rfl, rfl, rfl, fun h => ⟨h.1, ⟨Memory.write_wf _ _ h.2.1.1, insertNat_rising _ h.2.1.2⟩, h.2.2⟩⟩
  · exact .refl s

/-- Another agent changes the memories and their buffers alone, and keeps their form. -/
theorem MemoryOnly.applyBus (s : State) (e : BusEvent) : MemoryOnly s (applyBus e s) := by
  cases e with
  | drainTcm side => exact .drainTcmOne s side
  | drainAhb => exact .drainAhbOne s
  | ahbWrite a b => exact ⟨rfl, rfl, rfl, rfl, fun h => ⟨h.1, h.2.1, Memory.write_wf _ _ h.2.2⟩⟩
  | tcmWrite side offset b => exact .dmaWrite s side offset b

/-- So does a batch of their actions. -/
theorem MemoryOnly.applyBatch (l : List BusEvent) (s : State) : MemoryOnly s (l.foldl (fun s e => Machine.applyBus e s) s) := by
  induction l generalizing s with
  | nil => exact .refl s
  | cons e l ih => exact (MemoryOnly.applyBus s e).trans (ih _)

/-- What happens between two accesses: the memories and their buffers change, and one batch is used up. -/
theorem MemoryOnly.betweenAccesses (s : State) : MemoryOnly { s with between := s.between.tail } s.betweenAccesses := by
  unfold State.betweenAccesses
  split
  · rename_i h
    have : ({ s with between := s.between.tail } : State) = s := by rw [h]; cases s; subst h; rfl
    rw [this]
    exact .refl s
  · rename_i h
    rw [h]
    exact MemoryOnly.applyBatch _ _

/-! ## Watchpoints -/

/-- A unit that is not both enabled and set on data accesses matches none. -/
theorem WatchUnit.no_hit {u : WatchUnit} (h : (u.enable && u.onData) = false) {x : Seen} (hx : x.data = true) (ext : Bool) :
    (u.enable && u.sees x ext) = false := by
  unfold WatchUnit.sees WatchUnit.seesAddress
  rw [hx]
  cases he : u.enable
  · simp
  · rw [he] at h
    simp_all

/-- Where no watchpoint can match, the comparison of a data access says nothing. -/
theorem watchAnswer_unwatched {s : State} (h : s.unwatched) {x : Seen} (hx : x.data = true) :
    watchAnswer x s = .quiet := by
  have key (h0 : s.hit0 x = false) (h1 : s.hit1 x = false) (h2 : (s.compares && s.pins.dbgdewpt) = false) :
      watchAnswer x s = .quiet := by
    unfold watchAnswer
    simp only [h0, h1, h2]
    rfl
  rcases h with h | h | ⟨h0, h1, h2⟩
  · exact key (by simp [State.hit0, State.range0, State.compares, h])
      (by simp [State.hit1, State.range1, State.compares, h]) (by simp [State.compares, h])
  · exact key (by simp [State.hit0, State.range0, State.compares, h])
      (by simp [State.hit1, State.range1, State.compares, h]) (by simp [State.compares, h])
  · refine key ?_ ?_ (by simp [h2])
    · have := WatchUnit.no_hit h0 hx (s.pins.dbgext.getLsbD 0)
      simp only [State.hit0, State.range0]
      cases he : s.dbg.unit0.enable <;> simp_all
    · have := WatchUnit.no_hit h1 hx (s.pins.dbgext.getLsbD 1)
      simp only [State.hit1, State.range1]
      cases he : s.dbg.unit1.enable <;> simp_all

/-- Where no watchpoint can match, an access that aborts leaves no mark but its cycle. -/
theorem noteAbort_unwatched {s : State} (h : s.unwatched) {x : Seen} (hx : x.data = true) : noteAbort x s = s.noteCycle x := by
  have hq := watchAnswer_unwatched h hx
  unfold watchAnswer at hq
  unfold noteAbort
  dsimp only at hq ⊢
  cases hm : s.hit0 x || s.hit1 x || (s.compares && s.pins.dbgdewpt)
  · simp
  · simp only [hm, Bool.not_true, Bool.false_eq_true, if_false] at hq
    split at hq <;> cases hq

/-- A change of the memories does not bring a watchpoint. -/
theorem MemoryOnly.unwatched {s t : State} (h : MemoryOnly s t) (hw : s.unwatched) : t.unwatched := by
  rw [h.core]; exact hw

/-! ## MemRead -/

/-- A TCM read that does not abort. -/
theorem readTcm_ok {s : State} {side : Side} {size : Size} {a : Word} (hm : s.tcmProblem side = none)
    (hh : s.pins.tcmHung side = false) (he : s.tcmReadError side size a = false) (hr : s.routeData a = .tcm side) :
    ∃ t, readTcm side size a s = .ok (takeLanes s.cp15.b size a (s.settledWord a)) t ∧ MemoryOnly s t ∧
      SameMemory s t := by
  unfold readTcm
  unfold State.tcmReadError at he
  have hw : s.settledWord a = ((s.tcm side).waited (s.cp15.order side)).readWord (s.tcmWord side a) := by
    cases side <;> simp [State.settledWord, State.placeOf, hr, State.byteAt, State.tcm, Tcm.readWord, Memory.readWord]
  refine ⟨_, ?_, .waited s side (s.cp15.order side), byteAt_waited s side _⟩
  simp only [hm, hh, he, hw, Bool.false_and, Bool.false_eq_true, if_false]

/-- MemRead where it completes (R62): the value, and memory as it was. -/
theorem memRead_ok {s : State} {force : Bool} {size : Size} {addr : Word} (h : s.readable force size addr) :
    ∃ t, memRead force size addr s = .ok (s.loaded size addr) t ∧ MemoryOnly s t ∧ SameMemory s t := by
  obtain ⟨hw, ha, hm, hf⟩ := h
  unfold memRead State.loaded
  rw [ha]
  simp only [Bool.false_eq_true, if_false]
  generalize alignTo size addr = a at *
  have quiet (t : State) (u : MemoryOnly s t) (v : Word) :
      noteRead (dataCycle false (s.userAccess force) size a (some v)) v t =
        .ok v (t.noteCycle (dataCycle false (s.userAccess force) size a (some v))) := by
    unfold noteRead
    rw [watchAnswer_unwatched (u.unwatched hw) rfl]
  unfold State.mapped at hm
  unfold State.readFails at hf
  cases hr : s.routeData a with
  | tcm side =>
    rw [hr] at hm hf
    simp only [Bool.and_eq_true, Option.isNone_iff_eq_none, Bool.not_eq_true'] at hm
    obtain ⟨t, ht, hc, hs⟩ := readTcm_ok hm.1 hm.2 hf hr
    exact ⟨_, by simp only [ht]; exact quiet t hc _, hc.trans (.noteCycle t _), hs⟩
  | ahb =>
    rw [hr] at hf hm
    have hf' : s.drainAhb.ahb.error .read (s.userAccess force) a = false := by
      unfold Ahb.error at hf ⊢
      simpa using hf
    have hv : s.settledWord a = s.drainAhb.ahb.mem.readWord (wordNumber a) := by
      simp [State.settledWord, State.placeOf, hr, State.byteAt, Memory.readWord]
    simp only [Bool.not_eq_true'] at hm
    have hread : readAhb (s.userAccess force) size a s = .ok (takeLanes s.cp15.b size a (s.settledWord a)) s.drainAhb := by
      simp only [readAhb, hm, hf', hv, Bool.false_eq_true, if_false]
      rfl
    exact ⟨_, by simp only [hread]; exact quiet _ (.drainAhb s) _,
      (MemoryOnly.drainAhb s).trans (.noteCycle s.drainAhb _), byteAt_drainAhb s⟩

/-! ## MemWrite -/

/-- The lane a store writes at a place, where a word's lanes are the four places of an injective map. -/
theorem laneAt_some {s : State} {size : Size} {addr : Word} {k : Nat} (hk : k < 4)
    (hl : (accessLanes s.cp15.b size (alignTo size addr)).getLsbD k = true) :
    s.laneAt size addr (s.placeOf (alignTo size addr) k) = some k := by
  unfold State.laneAt
  generalize alignTo size addr = a at *
  have hi (j : Nat) (h : s.placeOf a j = s.placeOf a k) : j = k := by
    unfold State.placeOf at h
    split at h <;> simp at h <;> exact h
  have hk : k = 0 ∨ k = 1 ∨ k = 2 ∨ k = 3 := by omega
  have h0 := hi 0
  have h1 := hi 1
  have h2 := hi 2
  rcases hk with rfl | rfl | rfl | rfl <;> simp_all [List.find?] <;>
    repeat' split <;> simp_all

/-- No lane where the place is none of the enabled lanes. -/
theorem laneAt_none {s : State} {size : Size} {addr : Word} {p : Place}
    (h : ∀ k < 4, (accessLanes s.cp15.b size (alignTo size addr)).getLsbD k = true →
      s.placeOf (alignTo size addr) k ≠ p) : s.laneAt size addr p = none := by
  unfold State.laneAt
  rw [List.find?_eq_none]
  intro k hk
  have := h k (by simp at hk; omega)
  simp only [Bool.and_eq_true, decide_eq_true_eq, not_and]
  exact this

/-- The byte of an AHB place after a write of a word's lanes. -/
theorem storedByte_ahb {s : State} {force : Bool} {size : Size} {addr v : Word} (x : Nat) (old : Byte)
    (hr : s.routeData (alignTo size addr) = .ahb) :
    s.storedByte force size addr v (.ahb x) old =
      if x / 4 = wordNumber (alignTo size addr) ∧
          (accessLanes s.cp15.b size (alignTo size addr)).getLsbD (x % 4) = true then
        if s.ahb.error .write (s.userAccess force) (alignTo size addr) then old
        else laneByte (putLanes s.cp15.b size (alignTo size addr) v) (x % 4)
      else old := by
  have hp (k : Nat) : s.placeOf (alignTo size addr) k = .ahb (4 * wordNumber (alignTo size addr) + k) := by
    simp [State.placeOf, hr]
  unfold State.storedByte
  by_cases hx : x / 4 = wordNumber (alignTo size addr) ∧
      (accessLanes s.cp15.b size (alignTo size addr)).getLsbD (x % 4) = true
  · have := laneAt_some (s := s) (size := size) (addr := addr) (k := x % 4) (by omega) hx.2
    rw [hp, ← hx.1, show 4 * (x / 4) + x % 4 = x by omega] at this
    rw [this, if_pos hx]
    simp [State.lostWrite, hr]
  · rw [laneAt_none, if_neg hx]
    intro k hk hl h
    rw [hp] at h
    obtain rfl : 4 * wordNumber (alignTo size addr) + k = x := by simpa using h
    exact hx ⟨by omega, by rwa [show (4 * wordNumber (alignTo size addr) + k) % 4 = k by omega]⟩

/-- A place that an AHB write cannot reach. -/
theorem storedByte_ahb_other {s : State} {force : Bool} {size : Size} {addr v : Word} {p : Place} (old : Byte)
    (hr : s.routeData (alignTo size addr) = .ahb) (hp : ∀ x, p ≠ .ahb x) :
    s.storedByte force size addr v p old = old := by
  unfold State.storedByte
  rw [laneAt_none]
  intro k _ _ h
  simp only [State.placeOf, hr] at h
  exact hp _ h.symm

/-- The place of a byte of a TCM. -/
def tcmPlace (side : Side) (x : Nat) : Place :=
  match side with | .itcm => .itcm x | .dtcm => .dtcm x

/-- The byte of a TCM place after a write of a word's lanes. -/
theorem storedByte_tcm {s : State} {force : Bool} {size : Size} {addr v : Word} {side : Side} (x : Nat) (old : Byte)
    (hr : s.routeData (alignTo size addr) = .tcm side) :
    s.storedByte force size addr v (tcmPlace side x) old =
      if x / 4 = s.tcmWord side (alignTo size addr) ∧
          (accessLanes s.cp15.b size (alignTo size addr)).getLsbD (x % 4) = true then
        laneByte (putLanes s.cp15.b size (alignTo size addr) v) (x % 4)
      else old := by
  have hp (k : Nat) :
      s.placeOf (alignTo size addr) k = tcmPlace side (4 * s.tcmWord side (alignTo size addr) + k) := by
    cases side <;> simp [State.placeOf, hr, tcmPlace]
  unfold State.storedByte
  by_cases hx : x / 4 = s.tcmWord side (alignTo size addr) ∧
      (accessLanes s.cp15.b size (alignTo size addr)).getLsbD (x % 4) = true
  · have := laneAt_some (s := s) (size := size) (addr := addr) (k := x % 4) (by omega) hx.2
    rw [hp, ← hx.1, show 4 * (x / 4) + x % 4 = x by omega] at this
    rw [this, if_pos hx]
    simp [State.lostWrite, hr]
  · rw [laneAt_none, if_neg hx]
    intro k hk hl h
    rw [hp] at h
    obtain rfl : 4 * s.tcmWord side (alignTo size addr) + k = x := by cases side <;> simpa [tcmPlace] using h
    exact hx ⟨by omega, by rwa [show (4 * s.tcmWord side (alignTo size addr) + k) % 4 = k by omega]⟩

/-- A place that a TCM write cannot reach. -/
theorem storedByte_tcm_other {s : State} {force : Bool} {size : Size} {addr v : Word} {side : Side} {p : Place}
    (old : Byte) (hr : s.routeData (alignTo size addr) = .tcm side) (hp : ∀ x, p ≠ tcmPlace side x) :
    s.storedByte force size addr v p old = old := by
  unfold State.storedByte
  rw [laneAt_none]
  intro k _ _ h
  cases side <;> simp only [State.placeOf, hr] at h <;> exact hp _ h.symm

/-- A TCM after its buffer has taken a write (R66): that TCM's memory and buffer alone change. -/
theorem MemoryOnly.push (s : State) (side : Side) (e : TcmEntry) :
    MemoryOnly s (s.setTcm side (((s.tcm side).waited false).push e)) := by
  cases side
  · exact ⟨rfl, (Tcm.push_err _ _).trans (Tcm.waited_err _ _), rfl, rfl,
      fun h => ⟨Tcm.push_inForm _ (Tcm.waited_inForm _ h.1), h.2⟩⟩
  · exact ⟨rfl, rfl, (Tcm.push_err _ _).trans (Tcm.waited_err _ _), rfl,
      fun h => ⟨h.1, Tcm.push_inForm _ (Tcm.waited_inForm _ h.2.1), h.2.2⟩⟩

/-- A TCM write, as the byte of every place. -/
theorem byteAt_tcmWrite {s : State} {force : Bool} {side : Side} {size : Size} {addr v : Word} (hs : s.memoryInForm)
    (hr : s.routeData (alignTo size addr) = .tcm side) (p : Place) :
    (s.setTcm side (((s.tcm side).waited false).push
      { word := s.tcmWord side (alignTo size addr), lanes := accessLanes s.cp15.b size (alignTo size addr)
        data := putLanes s.cp15.b size (alignTo size addr) v })).byteAt p =
      s.storedByte force size addr v p (s.byteAt p) := by
  have hf : (s.tcm side).inForm := by cases side; exacts [hs.1, hs.2.1]
  cases side
  · cases p with
    | itcm x =>
      rw [show Place.itcm x = tcmPlace .itcm x from rfl, storedByte_tcm x _ hr]
      simp only [tcmPlace, State.byteAt, State.setTcm, State.tcm, Tcm.push_drain, Tcm.waited_drain, Tcm.commit]
      exact Memory.read_writeWord (Tcm.drain_inForm hf).1 _ _ _ _
    | dtcm x => rw [storedByte_tcm_other _ hr (by simp [tcmPlace])]; rfl
    | ahb x => rw [storedByte_tcm_other _ hr (by simp [tcmPlace])]; rfl
  · cases p with
    | dtcm x =>
      rw [show Place.dtcm x = tcmPlace .dtcm x from rfl, storedByte_tcm x _ hr]
      simp only [tcmPlace, State.byteAt, State.setTcm, State.tcm, Tcm.push_drain, Tcm.waited_drain, Tcm.commit]
      exact Memory.read_writeWord (Tcm.drain_inForm hf).1 _ _ _ _
    | itcm x => rw [storedByte_tcm_other _ hr (by simp [tcmPlace])]; rfl
    | ahb x => rw [storedByte_tcm_other _ hr (by simp [tcmPlace])]; rfl

/-- A TCM write where it completes. -/
theorem writeTcm_ok {s : State} {force : Bool} {side : Side} {size : Size} {addr v : Word} (hs : s.memoryInForm)
    (hm : s.tcmProblem side = none) (hh : s.pins.tcmHung side = false) (hr : s.routeData (alignTo size addr) = .tcm side) :
    ∃ t, writeTcm side size (alignTo size addr) v s = .ok () t ∧ MemoryOnly s t ∧
      ∀ p, t.byteAt p = s.storedByte force size addr v p (s.byteAt p) := by
  unfold writeTcm
  simp only [hm, hh, Bool.false_and, Bool.false_eq_true, if_false]
  exact ⟨_, rfl, .push s side _, byteAt_tcmWrite hs hr⟩

/-- A write on the AHB, as the byte of every place. -/
theorem byteAt_ahbWrite {s : State} {force : Bool} {size : Size} {addr v : Word} {h : Ahb} (hs : s.memoryInForm)
    (hr : s.routeData (alignTo size addr) = .ahb)
    (hd : h.drain = s.ahb.drain.writeWord (s.userAccess force) (alignTo size addr)
      (accessLanes s.cp15.b size (alignTo size addr)) (putLanes s.cp15.b size (alignTo size addr) v)) (p : Place) :
    ({ s with ahb := h } : State).byteAt p = s.storedByte force size addr v p (s.byteAt p) := by
  cases p with
  | itcm x => rw [storedByte_ahb_other _ hr (by simp)]; rfl
  | dtcm x => rw [storedByte_ahb_other _ hr (by simp)]; rfl
  | ahb x =>
    rw [storedByte_ahb x _ hr]
    simp only [State.byteAt, hd, Ahb.writeWord]
    have he : s.ahb.drain.error .write (s.userAccess force) (alignTo size addr) =
        s.ahb.error .write (s.userAccess force) (alignTo size addr) := by simp [Ahb.error]
    rw [he]
    split
    · split <;> rfl
    · exact Memory.read_writeWord (Ahb.drain_wf hs.2.2) _ _ _ _

/-- MemWrite where it completes (R63): every byte of memory afterwards. -/
theorem memWrite_ok {s : State} {force swap seq : Bool} {size : Size} {addr v : Word} (hs : s.memoryInForm)
    (h : s.writable force swap size addr) :
    ∃ t, memWrite force swap seq size addr v s = .ok () t ∧ MemoryOnly s t ∧
      ∀ p, t.byteAt p = s.storedByte force size addr v p (s.byteAt p) := by
  obtain ⟨hw, ha, hm, hf⟩ := h
  unfold memWrite routeWrite
  rw [ha]
  simp only [Bool.false_eq_true, if_false]
  have done (t : State) (u : MemoryOnly s t) :
      noteWrite (dataCycle true (s.userAccess force) size (alignTo size addr) (some (size.trunc v))) s t =
        .ok () (t.noteCycle (dataCycle true (s.userAccess force) size (alignTo size addr) (some (size.trunc v)))) := by
    unfold noteWrite
    rw [watchAnswer_unwatched (u.unwatched hw) rfl]
  unfold State.mapped at hm
  unfold State.writeFails at hf
  cases hr : s.routeData (alignTo size addr) with
  | tcm side =>
    rw [hr] at hm
    simp only [Bool.and_eq_true, Option.isNone_iff_eq_none, Bool.not_eq_true'] at hm
    obtain ⟨t, ht, hc, hb⟩ := writeTcm_ok (force := force) (v := v) hs hm.1 hm.2 hr
    exact ⟨_, by simp only [ht]; exact done t hc, hc.trans (.noteCycle t _), hb⟩
  | ahb =>
    rw [hr] at hf hm
    simp only [Bool.not_eq_true'] at hm
    have key (g : Ahb) (hd : g.drain = s.ahb.drain.writeWord (s.userAccess force) (alignTo size addr)
        (accessLanes s.cp15.b size (alignTo size addr)) (putLanes s.cp15.b size (alignTo size addr) v))
        (he : g.err = s.ahb.err) (hf : s.memoryInForm → Memory.wf g.mem) :
        ∃ t, noteWrite (dataCycle true (s.userAccess force) size (alignTo size addr) (some (size.trunc v))) s
            { s with ahb := g } = .ok () t ∧ MemoryOnly s t ∧
          ∀ p, t.byteAt p = s.storedByte force size addr v p (s.byteAt p) :=
      have u : MemoryOnly s { s with ahb := g } := ⟨rfl, rfl, rfl, he, fun h => ⟨h.1, h.2.1, hf h⟩⟩
      ⟨_, done _ u, u.trans (.noteCycle _ _), byteAt_ahbWrite hs hr hd⟩
    by_cases hb : s.buffered (alignTo size addr) swap = true
    · simp only [writeAhb, hb, hm, Bool.false_and, Bool.false_eq_true, if_true, if_false]
      cases seq
      · exact key _ (by rw [if_neg (by simp), Ahb.push_drain]; rfl) (Ahb.push_err _ _) fun h => Ahb.push_wf _ h.2.2
      · exact key _ (by rw [if_pos rfl, Ahb.pushSeq_drain]; rfl) (Ahb.pushSeq_err _ _)
          fun h => Ahb.pushSeq_wf _ h.2.2
    · have he : s.ahb.error .write (s.userAccess force) (alignTo size addr) = false := by simpa [hb] using hf
      have he' : s.drainAhb.ahb.error .write (s.userAccess force) (alignTo size addr) = false := by
        rw [← he]; simp [Ahb.error]
      simp only [writeAhb, hb, hm, he', Bool.false_eq_true, if_false]
      exact key _ (Ahb.drain_of_empty (by simp) (by simp)) (by simp)
        fun h => Ahb.writeWord_wf _ _ _ _ (Ahb.drain_wf h.2.2)

/-! ## The words of a store multiple after the aborting one (U-46-2) -/

/-- What a TCM does with a write (R63, R66): it refuses, holds it for ever, or its buffer takes it. -/
theorem writeTcm_cases {s t : State} {side : Side} {size : Size} {a v : Word} {x : Access Unit}
    (h : writeTcm side size a v s = x) (hx : x = .ok () t ∨ x = .abort t) :
    x = .ok () t ∧ t = s.setTcm side (((s.tcm side).waited false).push
      { word := s.tcmWord side a, lanes := accessLanes s.cp15.b size a, data := putLanes s.cp15.b size a v }) := by
  unfold writeTcm at h
  split at h
  · subst h
    simp at hx
  · dsimp only at h
    split at h <;> subst h
    · simp [Access.hangs] at hx
    · simp only [Access.ok.injEq, true_and, reduceCtorEq, or_false] at hx
      exact ⟨by rw [hx], hx.symm⟩

/-- What the AHB does with a write (R63, R69, R70): the buffer takes it; the write is made with the buffer empty; or it is
answered with ERROR, the buffer empty. -/
theorem writeAhb_cases {s t : State} {user swap seq : Bool} {size : Size} {a v : Word} {x : Access Unit}
    (h : writeAhb user swap seq size a v s = x) (hx : x = .ok () t ∨ x = .abort t) :
    x = .abort t ∧ t = s.drainAhb ∨
    x = .ok () t ∧ ∃ g : Ahb, t = { s with ahb := g } ∧ g.err = s.ahb.err ∧ (Memory.wf s.ahb.mem → Memory.wf g.mem) ∧
      g.drain = s.ahb.drain.writeWord user a (accessLanes s.cp15.b size a) (putLanes s.cp15.b size a v) := by
  unfold writeAhb at h
  dsimp only at h
  split at h
  · split at h <;> subst h
    · simp [Access.hangs] at hx
    · simp only [Access.ok.injEq, true_and, reduceCtorEq, or_false] at hx
      refine .inr ⟨by rw [hx], _, hx.symm, ?_⟩
      cases seq
      · exact ⟨Ahb.push_err _ _, fun h => Ahb.push_wf _ h, by rw [if_neg (by simp), Ahb.push_drain]; rfl⟩
      · exact ⟨Ahb.pushSeq_err _ _, fun h => Ahb.pushSeq_wf _ h, by rw [if_pos rfl, Ahb.pushSeq_drain]; rfl⟩
  · split at h
    · subst h
      simp [Access.hangs] at hx
    · split at h <;> subst h
      · simp only [Access.abort.injEq, reduceCtorEq, false_or] at hx
        exact .inl ⟨by rw [hx], hx.symm⟩
      · simp only [Access.ok.injEq, true_and, reduceCtorEq, or_false] at hx
        exact .inr ⟨by rw [hx], _, hx.symm, by simp [State.drainAhb],
          fun h => Ahb.writeWord_wf _ _ _ _ (Ahb.drain_wf h), Ahb.drain_of_empty (by simp) (by simp)⟩

/-- A write that its memory takes, or answers with an abort, changes the memories and their buffers alone. -/
theorem routeWrite_memoryOnly {s t : State} {user swap seq : Bool} {size : Size} {a v : Word}
    (h : routeWrite user swap seq size a v s = .ok () t ∨ routeWrite user swap seq size a v s = .abort t) :
    MemoryOnly s t := by
  unfold routeWrite at h
  split at h
  · rw [(writeTcm_cases rfl h).2]
    exact .push s _ _
  · rcases writeAhb_cases rfl h with ⟨-, rfl⟩ | ⟨-, g, rfl, he, hw, -⟩
    · exact .drainAhb s
    · exact ⟨rfl, rfl, rfl, he, fun h => ⟨h.1, h.2.1, hw h.2.2⟩⟩

/-- A write that its memory takes, as the byte of every place (R63). -/
theorem routeWrite_byteAt {s t : State} {force swap seq : Bool} {size : Size} {addr v : Word} (hs : s.memoryInForm)
    (h : routeWrite (s.userAccess force) swap seq size (alignTo size addr) v s = .ok () t) (p : Place) :
    t.byteAt p = s.storedByte force size addr v p (s.byteAt p) := by
  unfold routeWrite at h
  split at h
  · rename_i hr
    rw [(writeTcm_cases rfl (.inl h)).2]
    exact byteAt_tcmWrite hs hr p
  · rename_i hr
    rcases writeAhb_cases rfl (.inl h) with ⟨hx, -⟩ | ⟨-, g, rfl, -, -, hd⟩
    · simp [h] at hx
    · exact byteAt_ahbWrite hs hr hd p

/-- A write that its memory answers with ERROR changes no byte that the core can read. -/
theorem routeWrite_abort_sameMemory {s t : State} {user swap seq : Bool} {size : Size} {a v : Word}
    (h : routeWrite user swap seq size a v s = .abort t) : SameMemory s t := by
  unfold routeWrite at h
  split at h
  · simpa [h] using (writeTcm_cases rfl (.inr h)).1
  · rcases writeAhb_cases rfl (.inr h) with ⟨-, rfl⟩ | ⟨hx, -⟩
    · exact byteAt_drainAhb s
    · simp [h] at hx

/-- A state after late stores: the memories and their buffers, the outputs, the chain latch, DbgAbt, a recorded watchpoint and
the counter of free values alone have changed. -/
structure LateStored (s t : State) : Prop where
  core : t = { s with
    itcm := t.itcm, dtcm := t.dtcm, ahb := t.ahb, chain := t.chain, out := t.out, freeCtr := t.freeCtr
    dcc := { s.dcc with dbgAbt := t.dcc.dbgAbt }, dbg := { s.dbg with watch := t.dbg.watch } }
  itcmErr : t.itcm.err = s.itcm.err
  dtcmErr : t.dtcm.err = s.dtcm.err
  ahbErr : t.ahb.err = s.ahb.err
  inForm : s.memoryInForm → t.memoryInForm

/-- A byte that a store puts somewhere is the same before and after. -/
theorem LateStored.storedByte {s t : State} (h : LateStored s t) (force : Bool) (size : Size) (a v : Word) (p : Place)
    (b : Byte) : t.storedByte force size a v p b = s.storedByte force size a v p b := by
  have he := h.ahbErr
  rw [h.core] at he ⊢
  have hl (a : Word) : ∀ g : Ahb, g.err = s.ahb.err → ∀ w u, g.error u w a = s.ahb.error u w a := by
    intro g hg w u
    unfold Ahb.error
    rw [hg]
  unfold State.storedByte State.lostWrite
  simp only [hl _ _ he, State.laneAt, State.placeOf, State.routeData, State.tcmWord, State.userAccess, State.privileged, State.mode]
  rfl

/-- Nothing changed. -/
theorem LateStored.refl (s : State) : LateStored s s := ⟨rfl, rfl, rfl, rfl, id⟩

/-- One change after another. -/
theorem LateStored.trans {s t u : State} (h : LateStored s t) (k : LateStored t u) : LateStored s u := by
  refine ⟨?_, k.itcmErr.trans h.itcmErr, k.dtcmErr.trans h.dtcmErr, k.ahbErr.trans h.ahbErr, k.inForm ∘ h.inForm⟩
  rw [k.core, h.core]

/-- A change of the memories alone is one. -/
theorem MemoryOnly.lateStored {s t : State} (h : MemoryOnly s t) : LateStored s t := by
  refine ⟨?_, h.itcmErr, h.dtcmErr, h.ahbErr, h.inForm⟩
  rw [h.core]

/-- Taking a free choice is one. -/
theorem LateStored.takeBool (s : State) : LateStored s s.takeBool.2 := ⟨rfl, rfl, rfl, rfl, id⟩

/-- The comparison of a word written late records a match and may undo the write; that is all. -/
theorem noteLateWrite_lateStored (x : Seen) {s t : State} (h : MemoryOnly s t) : LateStored s (noteLateWrite x s t) := by
  have cycle (u : State) : LateStored u (u.noteCycle x) := (MemoryOnly.noteCycle u x).lateStored
  have watch (u : State) : LateStored u u.noteWatch := by
    unfold State.noteWatch
    split
    exacts [⟨rfl, rfl, rfl, rfl, id⟩, .refl u, .refl u]
  unfold noteLateWrite
  dsimp only
  split
  · exact h.lateStored.trans (cycle t)
  · split
    · have key (u : State) (hu : LateStored s u) :
          LateStored s (if (u.noteCycle x).takeBool.2.takeBool.1 then (u.noteCycle x).takeBool.2.takeBool.2.setDbgAbt
            else (u.noteCycle x).takeBool.2.takeBool.2) := by
        have hc := ((hu.trans (cycle u)).trans (.takeBool _)).trans (.takeBool _)
        split
        · exact hc.trans ⟨rfl, rfl, rfl, rfl, id⟩
        · exact hc
      split
      · exact key t h.lateStored
      · exact key s (.refl s)
    · exact (h.lateStored.trans (cycle t)).trans (watch _)

/-- An abort of a word issued late records a match; that is all. -/
theorem noteAbort_lateStored (x : Seen) (s : State) : LateStored s (noteAbort x s) := by
  unfold noteAbort
  dsimp only
  split
  · exact (MemoryOnly.noteCycle s x).lateStored
  · exact (MemoryOnly.noteCycle s x).lateStored.trans ⟨rfl, rfl, rfl, rfl, id⟩

/-- What the words after the aborting one can do (R236 (4), U-46-2). -/
theorem maybeStore_lateStored (l : List (Word × Word)) (s : State) : LateStored s (maybeStore l s) := by
  induction l generalizing s with
  | nil => exact .refl s
  | cons w l ih =>
    unfold maybeStore
    dsimp only
    split
    · split
      · rename_i h
        exact ((LateStored.takeBool s).trans (noteLateWrite_lateStored _ (routeWrite_memoryOnly (.inl h)))).trans (ih _)
      · rename_i h
        exact (((LateStored.takeBool s).trans (routeWrite_memoryOnly (.inr h)).lateStored).trans
          (noteAbort_lateStored _ _)).trans (ih _)
      · exact (LateStored.takeBool s).trans (ih _)
    · exact (LateStored.takeBool s).trans (ih _)

/-- Where no watchpoint can match, late stores leave CP14 and the debug logic as they were. -/
theorem maybeStore_unwatched (l : List (Word × Word)) {s : State} (hw : s.unwatched) :
    (maybeStore l s).dcc = s.dcc ∧ (maybeStore l s).dbg = s.dbg := by
  induction l generalizing s with
  | nil => exact ⟨rfl, rfl⟩
  | cons w l ih =>
    have next {t : State} (h : MemoryOnly s.takeBool.2 t) (x : Seen) :
        (maybeStore l (t.noteCycle x)).dcc = s.dcc ∧ (maybeStore l (t.noteCycle x)).dbg = s.dbg := by
      have := h.trans (.noteCycle t x)
      have i := ih (this.unwatched (s := s.takeBool.2) hw)
      rw [this.sameSystem.dcc, this.sameSystem.dbg] at i
      exact i
    unfold maybeStore
    dsimp only
    split
    · split
      · rename_i h
        have m := routeWrite_memoryOnly (.inl h)
        rw [noteLateWrite, if_pos (watchAnswer_unwatched (m.unwatched (s := s.takeBool.2) hw) rfl)]
        exact next m _
      · rename_i h
        have m := routeWrite_memoryOnly (.inr h)
        rw [noteAbort_unwatched (m.unwatched (s := s.takeBool.2) hw) rfl]
        exact next m _
      · exact ih (s := s.takeBool.2) hw
    · exact ih (s := s.takeBool.2) hw

/-- The comparison of a word written late changes no byte, or undoes the write. -/
theorem noteLateWrite_byteAt (x : Seen) (s t : State) (p : Place) :
    (noteLateWrite x s t).byteAt p = t.byteAt p ∨ (noteLateWrite x s t).byteAt p = s.byteAt p := by
  have cycle (u : State) : (u.noteCycle x).byteAt p = u.byteAt p := by cases p <;> rfl
  have watch (u : State) : u.noteWatch.byteAt p = u.byteAt p := by
    unfold State.noteWatch
    split <;> cases p <;> rfl
  have key (u : State) :
      (if (u.noteCycle x).takeBool.2.takeBool.1 then (u.noteCycle x).takeBool.2.takeBool.2.setDbgAbt
        else (u.noteCycle x).takeBool.2.takeBool.2).byteAt p = u.byteAt p := by
    split <;> cases p <;> rfl
  unfold noteLateWrite
  dsimp only
  split
  · exact .inl (cycle t)
  · split
    · split
      · exact .inl (key t)
      · exact .inr (key s)
    · exact .inl ((watch _).trans (cycle t))

/-- An abort of a word issued late changes no byte. -/
theorem noteAbort_byteAt (x : Seen) (s : State) (p : Place) : (noteAbort x s).byteAt p = s.byteAt p := by
  unfold noteAbort
  dsimp only
  split <;> cases p <;> rfl

/-- A stored byte is the byte that was there, or one that does not depend on it. -/
theorem storedByte_cases (s : State) (force : Bool) (size : Size) (addr v : Word) (p : Place) :
    (∀ b, s.storedByte force size addr v p b = b) ∨ ∀ b c, s.storedByte force size addr v p b = s.storedByte force size addr v p c := by
  unfold State.storedByte
  cases s.laneAt size addr p with
  | none => exact .inl fun _ => rfl
  | some k =>
    cases h : s.lostWrite force (alignTo size addr)
    · exact .inr fun _ _ => by simp
    · exact .inl fun _ => by simp

/-- Each byte after late stores is the old one, or the one that a word of the list puts there (U-46-2). -/
theorem maybeStore_byteAt (l : List (Word × Word)) {s : State} (hs : s.memoryInForm) (p : Place) :
    (maybeStore l s).byteAt p = s.byteAt p ∨
      ∃ w ∈ l, (maybeStore l s).byteAt p = s.storedByte false .word w.1 w.2 p (s.byteAt p) := by
  induction l generalizing s with
  | nil => exact .inl rfl
  | cons w l ih =>
    -- the rest of the list, from a state whose byte is the old one or the one that `w` puts there
    have rest {u : State} (hu : LateStored s u)
        (hb : u.byteAt p = s.byteAt p ∨ u.byteAt p = s.storedByte false .word w.1 w.2 p (s.byteAt p)) :
        (maybeStore l u).byteAt p = s.byteAt p ∨
          ∃ y ∈ w :: l, (maybeStore l u).byteAt p = s.storedByte false .word y.1 y.2 p (s.byteAt p) := by
      have first : u.byteAt p = s.byteAt p ∨
          ∃ y ∈ w :: l, u.byteAt p = s.storedByte false .word y.1 y.2 p (s.byteAt p) :=
        hb.imp id fun h => ⟨w, List.mem_cons_self, h⟩
      rcases ih (hu.inForm hs) with h | ⟨y, hy, h⟩
      · rw [h]
        exact first
      · rw [hu.storedByte] at h
        rcases storedByte_cases s false .word y.1 y.2 p with hc | hc
        · rw [h, hc]
          exact first
        · exact .inr ⟨y, List.mem_cons_of_mem _ hy, h.trans (hc _ _)⟩
    have taken : LateStored s s.takeBool.2 := .takeBool s
    have same : s.takeBool.2.byteAt p = s.byteAt p := by cases p <;> rfl
    unfold maybeStore
    dsimp only
    split
    · split
      · rename_i h
        refine rest (taken.trans (noteLateWrite_lateStored _ (routeWrite_memoryOnly (.inl h)))) ?_
        have hb := routeWrite_byteAt (force := false) (taken.inForm hs) h p
        rw [taken.storedByte, same] at hb
        rcases noteLateWrite_byteAt (dataCycle true (s.takeBool.2.userAccess false) .word (alignTo .word w.1) (some w.2))
          s.takeBool.2 _ p with h | h
        · exact .inr (h.trans hb)
        · exact .inl (h.trans same)
      · rename_i h
        refine rest ((taken.trans (routeWrite_memoryOnly (.inr h)).lateStored).trans (noteAbort_lateStored _ _)) (.inl ?_)
        rw [noteAbort_byteAt, routeWrite_abort_sameMemory h p, same]
      · exact rest taken (.inl same)
    · exact rest taken (.inl same)

/-- A late word keeps its old content where the free choice says that it is not issued. -/
theorem maybeStore_kept (w : Word × Word) (l : List (Word × Word)) {s : State} (h : Config.freeBool s.freeCtr = false) :
    maybeStore (w :: l) s = maybeStore l s.takeBool.2 := by
  conv_lhs => unfold maybeStore
  dsimp only
  rw [if_neg (by simp [State.takeBool, h])]

/-- A late word holds the stored value where the free choices say so, whether or not a watchpoint of monitor mode matches it. -/
theorem maybeStore_written (w : Word × Word) {s t : State} (h : Config.freeBool s.freeCtr = true)
    (hd : Config.freeBool (s.freeCtr + 1) = true) (ha : s.alignFault .word w.1 = false)
    (hr : routeWrite (s.userAccess false) false false .word (alignTo .word w.1) w.2 s.takeBool.2 = .ok () t) (p : Place) :
    (maybeStore [w] s).byteAt p = t.byteAt p := by
  have hc : t.takeBool.1 = true := by
    have : t.freeCtr = s.freeCtr + 1 := by rw [(routeWrite_memoryOnly (.inl hr)).core]; rfl
    simp [State.takeBool, this, hd]
  have key (x : Seen) : (noteLateWrite x s.takeBool.2 t).byteAt p = t.byteAt p := by
    unfold noteLateWrite State.noteWatch
    dsimp only
    rw [if_pos hc]
    repeat' split
    all_goals cases p <;> rfl
  have hi : (s.takeBool.1 && !s.takeBool.2.alignFault .word w.1) = true := by
    rw [show s.takeBool.2.alignFault .word w.1 = false from ha]
    simp [State.takeBool, h]
  unfold maybeStore
  dsimp only
  rw [if_pos hi]
  simp only [show s.takeBool.2.userAccess false = s.userAccess false from rfl, hr]
  exact key _

end Sys2Proof.Machine
end

