-- ==== Sys2Proof/Laws/Psr.lean ====
section
/-! SUPPORT. The fields of a status register after each update (R26). -/

namespace Sys2Proof.Machine

variable (p : Word)

/-! ### setNzcv -/

@[simp] theorem Psr.setNzcv_n (n z c v : Bool) : Psr.n (Psr.setNzcv p n z c v) = n := by
  rw [Psr.n, Psr.setNzcv]
  simp only [BitVec.getLsbD_append, BitVec.getLsbD_extractLsb']
  simp [nib]
  revert n z c v
  decide
@[simp] theorem Psr.setNzcv_z (n z c v : Bool) : Psr.z (Psr.setNzcv p n z c v) = z := by
  rw [Psr.z, Psr.setNzcv]
  simp only [BitVec.getLsbD_append, BitVec.getLsbD_extractLsb']
  simp [nib]
  revert n z c v
  decide
@[simp] theorem Psr.setNzcv_c (n z c v : Bool) : Psr.c (Psr.setNzcv p n z c v) = c := by
  rw [Psr.c, Psr.setNzcv]
  simp only [BitVec.getLsbD_append, BitVec.getLsbD_extractLsb']
  simp [nib]
  revert n z c v
  decide
@[simp] theorem Psr.setNzcv_v (n z c v : Bool) : Psr.v (Psr.setNzcv p n z c v) = v := by
  rw [Psr.v, Psr.setNzcv]
  simp only [BitVec.getLsbD_append, BitVec.getLsbD_extractLsb']
  simp [nib]
  revert n z c v
  decide
@[simp] theorem Psr.setNzcv_q (n z c v : Bool) : Psr.q (Psr.setNzcv p n z c v) = Psr.q p := by
  rw [Psr.q, Psr.setNzcv]
  simp only [BitVec.getLsbD_append, BitVec.getLsbD_extractLsb']
  simp [Psr.q]
@[simp] theorem Psr.setNzcv_i (n z c v : Bool) : Psr.i (Psr.setNzcv p n z c v) = Psr.i p := by
  rw [Psr.i, Psr.setNzcv]
  simp only [BitVec.getLsbD_append, BitVec.getLsbD_extractLsb']
  simp [Psr.i]
@[simp] theorem Psr.setNzcv_f (n z c v : Bool) : Psr.f (Psr.setNzcv p n z c v) = Psr.f p := by
  rw [Psr.f, Psr.setNzcv]
  simp only [BitVec.getLsbD_append, BitVec.getLsbD_extractLsb']
  simp [Psr.f]
@[simp] theorem Psr.setNzcv_t (n z c v : Bool) : Psr.t (Psr.setNzcv p n z c v) = Psr.t p := by
  rw [Psr.t, Psr.setNzcv]
  simp only [BitVec.getLsbD_append, BitVec.getLsbD_extractLsb']
  simp [Psr.t]
@[simp] theorem Psr.setNzcv_m (n z c v : Bool) : Psr.m (Psr.setNzcv p n z c v) = Psr.m p := by
  rw [Psr.m, Psr.m, Psr.setNzcv]
  ext j hj
  simp only [BitVec.getElem_extractLsb', BitVec.getLsbD_append, BitVec.getLsbD_extractLsb']
  simp [show j < 28 by omega]
@[simp] theorem Psr.setNzcv_reserved (n z c v : Bool) : Psr.reserved (Psr.setNzcv p n z c v) = Psr.reserved p := by
  rw [Psr.reserved, Psr.reserved, Psr.setNzcv]
  ext j hj
  simp only [BitVec.getElem_extractLsb', BitVec.getLsbD_append, BitVec.getLsbD_extractLsb']
  simp [show 8 + j < 28 by omega]

/-! ### setNz -/

@[simp] theorem Psr.setNz_n (n z : Bool) : Psr.n (Psr.setNz p n z) = n := by
  rw [Psr.n, Psr.setNz]
  simp only [BitVec.getLsbD_append, BitVec.getLsbD_extractLsb']
  simp
@[simp] theorem Psr.setNz_z (n z : Bool) : Psr.z (Psr.setNz p n z) = z := by
  rw [Psr.z, Psr.setNz]
  simp only [BitVec.getLsbD_append, BitVec.getLsbD_extractLsb']
  simp
@[simp] theorem Psr.setNz_c (n z : Bool) : Psr.c (Psr.setNz p n z) = Psr.c p := by
  rw [Psr.c, Psr.setNz]
  simp only [BitVec.getLsbD_append, BitVec.getLsbD_extractLsb']
  simp [Psr.c]
@[simp] theorem Psr.setNz_v (n z : Bool) : Psr.v (Psr.setNz p n z) = Psr.v p := by
  rw [Psr.v, Psr.setNz]
  simp only [BitVec.getLsbD_append, BitVec.getLsbD_extractLsb']
  simp [Psr.v]
@[simp] theorem Psr.setNz_q (n z : Bool) : Psr.q (Psr.setNz p n z) = Psr.q p := by
  rw [Psr.q, Psr.setNz]
  simp only [BitVec.getLsbD_append, BitVec.getLsbD_extractLsb']
  simp [Psr.q]
@[simp] theorem Psr.setNz_i (n z : Bool) : Psr.i (Psr.setNz p n z) = Psr.i p := by
  rw [Psr.i, Psr.setNz]
  simp only [BitVec.getLsbD_append, BitVec.getLsbD_extractLsb']
  simp [Psr.i]
@[simp] theorem Psr.setNz_f (n z : Bool) : Psr.f (Psr.setNz p n z) = Psr.f p := by
  rw [Psr.f, Psr.setNz]
  simp only [BitVec.getLsbD_append, BitVec.getLsbD_extractLsb']
  simp [Psr.f]
@[simp] theorem Psr.setNz_t (n z : Bool) : Psr.t (Psr.setNz p n z) = Psr.t p := by
  rw [Psr.t, Psr.setNz]
  simp only [BitVec.getLsbD_append, BitVec.getLsbD_extractLsb']
  simp [Psr.t]
@[simp] theorem Psr.setNz_m (n z : Bool) : Psr.m (Psr.setNz p n z) = Psr.m p := by
  rw [Psr.m, Psr.m, Psr.setNz]
  ext j hj
  simp only [BitVec.getElem_extractLsb', BitVec.getLsbD_append, BitVec.getLsbD_extractLsb']
  simp [show j < 30 by omega]
@[simp] theorem Psr.setNz_reserved (n z : Bool) : Psr.reserved (Psr.setNz p n z) = Psr.reserved p := by
  rw [Psr.reserved, Psr.reserved, Psr.setNz]
  ext j hj
  simp only [BitVec.getElem_extractLsb', BitVec.getLsbD_append, BitVec.getLsbD_extractLsb']
  simp [show 8 + j < 30 by omega]

/-! ### orQ -/

@[simp] theorem Psr.orQ_n (q : Bool) : Psr.n (Psr.orQ p q) = Psr.n p := by
  rw [Psr.n, Psr.orQ]
  simp only [BitVec.getLsbD_append, BitVec.getLsbD_extractLsb']
  simp [Psr.n]
@[simp] theorem Psr.orQ_z (q : Bool) : Psr.z (Psr.orQ p q) = Psr.z p := by
  rw [Psr.z, Psr.orQ]
  simp only [BitVec.getLsbD_append, BitVec.getLsbD_extractLsb']
  simp [Psr.z]
@[simp] theorem Psr.orQ_c (q : Bool) : Psr.c (Psr.orQ p q) = Psr.c p := by
  rw [Psr.c, Psr.orQ]
  simp only [BitVec.getLsbD_append, BitVec.getLsbD_extractLsb']
  simp [Psr.c]
@[simp] theorem Psr.orQ_v (q : Bool) : Psr.v (Psr.orQ p q) = Psr.v p := by
  rw [Psr.v, Psr.orQ]
  simp only [BitVec.getLsbD_append, BitVec.getLsbD_extractLsb']
  simp [Psr.v]
@[simp] theorem Psr.orQ_q (q : Bool) : Psr.q (Psr.orQ p q) = (Psr.q p || q) := by
  rw [Psr.q, Psr.orQ]
  simp only [BitVec.getLsbD_append, BitVec.getLsbD_extractLsb']
  simp [Psr.q]
@[simp] theorem Psr.orQ_i (q : Bool) : Psr.i (Psr.orQ p q) = Psr.i p := by
  rw [Psr.i, Psr.orQ]
  simp only [BitVec.getLsbD_append, BitVec.getLsbD_extractLsb']
  simp [Psr.i]
@[simp] theorem Psr.orQ_f (q : Bool) : Psr.f (Psr.orQ p q) = Psr.f p := by
  rw [Psr.f, Psr.orQ]
  simp only [BitVec.getLsbD_append, BitVec.getLsbD_extractLsb']
  simp [Psr.f]
@[simp] theorem Psr.orQ_t (q : Bool) : Psr.t (Psr.orQ p q) = Psr.t p := by
  rw [Psr.t, Psr.orQ]
  simp only [BitVec.getLsbD_append, BitVec.getLsbD_extractLsb']
  simp [Psr.t]
@[simp] theorem Psr.orQ_m (q : Bool) : Psr.m (Psr.orQ p q) = Psr.m p := by
  rw [Psr.m, Psr.m, Psr.orQ]
  ext j hj
  simp only [BitVec.getElem_extractLsb', BitVec.getLsbD_append, BitVec.getLsbD_extractLsb']
  simp [show j < 27 by omega]
@[simp] theorem Psr.orQ_reserved (q : Bool) : Psr.reserved (Psr.orQ p q) = Psr.reserved p := by
  rw [Psr.reserved, Psr.reserved, Psr.orQ]
  ext j hj
  simp only [BitVec.getElem_extractLsb', BitVec.getLsbD_append, BitVec.getLsbD_extractLsb']
  simp [show 8 + j < 27 by omega]

/-! ### setT -/

@[simp] theorem Psr.setT_n (t : Bool) : Psr.n (Psr.setT p t) = Psr.n p := by
  rw [Psr.n, Psr.setT]
  simp only [BitVec.getLsbD_append, BitVec.getLsbD_extractLsb']
  simp [Psr.n]
@[simp] theorem Psr.setT_z (t : Bool) : Psr.z (Psr.setT p t) = Psr.z p := by
  rw [Psr.z, Psr.setT]
  simp only [BitVec.getLsbD_append, BitVec.getLsbD_extractLsb']
  simp [Psr.z]
@[simp] theorem Psr.setT_c (t : Bool) : Psr.c (Psr.setT p t) = Psr.c p := by
  rw [Psr.c, Psr.setT]
  simp only [BitVec.getLsbD_append, BitVec.getLsbD_extractLsb']
  simp [Psr.c]
@[simp] theorem Psr.setT_v (t : Bool) : Psr.v (Psr.setT p t) = Psr.v p := by
  rw [Psr.v, Psr.setT]
  simp only [BitVec.getLsbD_append, BitVec.getLsbD_extractLsb']
  simp [Psr.v]
@[simp] theorem Psr.setT_q (t : Bool) : Psr.q (Psr.setT p t) = Psr.q p := by
  rw [Psr.q, Psr.setT]
  simp only [BitVec.getLsbD_append, BitVec.getLsbD_extractLsb']
  simp [Psr.q]
@[simp] theorem Psr.setT_i (t : Bool) : Psr.i (Psr.setT p t) = Psr.i p := by
  rw [Psr.i, Psr.setT]
  simp only [BitVec.getLsbD_append, BitVec.getLsbD_extractLsb']
  simp [Psr.i]
@[simp] theorem Psr.setT_f (t : Bool) : Psr.f (Psr.setT p t) = Psr.f p := by
  rw [Psr.f, Psr.setT]
  simp only [BitVec.getLsbD_append, BitVec.getLsbD_extractLsb']
  simp [Psr.f]
@[simp] theorem Psr.setT_t (t : Bool) : Psr.t (Psr.setT p t) = t := by
  rw [Psr.t, Psr.setT]
  simp only [BitVec.getLsbD_append, BitVec.getLsbD_extractLsb']
  simp
@[simp] theorem Psr.setT_m (t : Bool) : Psr.m (Psr.setT p t) = Psr.m p := by
  rw [Psr.m, Psr.m, Psr.setT]
  ext j hj
  simp only [BitVec.getElem_extractLsb', BitVec.getLsbD_append, BitVec.getLsbD_extractLsb']
  simp [hj]
@[simp] theorem Psr.setT_reserved (t : Bool) : Psr.reserved (Psr.setT p t) = Psr.reserved p := by
  rw [Psr.reserved, Psr.reserved, Psr.setT]
  ext j hj
  simp only [BitVec.getElem_extractLsb', BitVec.getLsbD_append, BitVec.getLsbD_extractLsb']
  simp [show ¬8 + j < 5 by omega, show ¬8 + j - 5 = 0 by omega, show 8 + j - 5 - 1 < 26 by omega,
    show 6 + (8 + j - 5 - 1) = 8 + j by omega]

end Sys2Proof.Machine
end

