-- ==== Sys2Proof/Laws/Ops.lean ====
section
/-! SUPPORT. One lemma per shared operation that says what it can do, for proofs to cite instead of unfolding it. -/

namespace Sys2Proof.Machine

variable {s t : State}

/-! ## Conditions and guards -/

/-- A conditional instruction whose condition holds. -/
theorem onCond_pass {c : Cond} (k : State → Result) (h : Cond.holds c s.cpsr = true) : onCond c k s = k s := by
  simp [onCond, h]

/-- A conditional instruction whose condition fails only advances the pc (R100). -/
theorem onCond_fail {c : Cond} (k : State → Result) (h : Cond.holds c s.cpsr = false) : onCond c k s = s.done := by
  simp [onCond, h]

/-- What a conditional instruction can answer. -/
theorem onCond_next {c : Cond} {k : State → Result} (h : onCond c k s = .next t) :
    k s = .next t ∨ t = s.advance := by
  unfold onCond State.done at h
  split at h
  · exact .inl h
  · exact .inr (by simpa using h.symm)

/-- A guard that does not stop. -/
@[simp] theorem refuseIf_false (r : Refusal) (k : Result) : refuseIf false r k = k := rfl

/-- A guard that stops. -/
@[simp] theorem refuseIf_true (r : Refusal) (k : Result) : refuseIf true r k = .refused r := rfl

/-- A guarded operation goes on only where the guard is false. -/
theorem refuseIf_next {b : Bool} {r : Refusal} {k : Result} (h : refuseIf b r k = .next t) :
    b = false ∧ k = .next t := by
  cases b
  · exact ⟨rfl, h⟩
  · cases h

/-! ## Registers -/

/-- R15 reads as the pc two instructions ahead (R24). -/
@[simp] theorem State.reg_pc (s : State) : s.reg 15 = s.readPc := rfl

/-- A register other than R15 reads as its bank holds it. -/
theorem State.reg_bank {r : Reg} (h : r ≠ 15) : s.reg r = s.bankReg s.mode r := if_neg h

/-- Two names other than R15 that select one physical register are equal. -/
theorem physIndex_injective (m : Mode) {a b : Reg} (ha : a ≠ 15) (hb : b ≠ 15)
    (h : physIndex m a = physIndex m b) : a = b := by
  revert a b
  cases m <;> decide

/-- A register read after a write of one (R22). -/
theorem State.bankReg_setBankReg (m : Mode) {a b : Reg} (v : Word) (ha : a ≠ 15) (hb : b ≠ 15) :
    (s.setBankReg m a v).bankReg m b = if b = a then v else s.bankReg m b := by
  unfold State.bankReg State.setBankReg
  rw [Fin.getElem_fin, Vector.getElem_set]
  by_cases h : b = a
  · simp [h]
  · rw [if_neg h, if_neg]
    · rfl
    · intro e
      exact h (physIndex_injective m hb ha (Fin.ext e.symm))

/-! ## Flags leave the instruction set state and the mode alone -/

/-- The pc goes on as before. -/
@[simp] theorem State.setFlags_nextPc (o : AluOut) : (s.setFlags o).nextPc = s.nextPc := by
  have h : (s.setFlags o).thumb = s.thumb := by simp [State.thumb]
  rw [State.nextPc, State.len, h]
  rfl

/-- The pc goes on as before. -/
@[simp] theorem State.setNz_nextPc (r : Word) : (s.setNz r).nextPc = s.nextPc := by
  have h : (s.setNz r).thumb = s.thumb := by simp [State.thumb]
  rw [State.nextPc, State.len, h]
  rfl

/-- The pc goes on as before. -/
@[simp] theorem State.setNz64_nextPc (r : BitVec 64) : (s.setNz64 r).nextPc = s.nextPc := by
  have h : (s.setNz64 r).thumb = s.thumb := by simp [State.thumb]
  rw [State.nextPc, State.len, h]
  rfl

/-- The pc goes on as before. -/
@[simp] theorem State.orQ_nextPc (q : Bool) : (s.orQ q).nextPc = s.nextPc := by
  have h : (s.orQ q).thumb = s.thumb := by simp [State.thumb]
  rw [State.nextPc, State.len, h]
  rfl

/-- The mode is the same. -/
@[simp] theorem State.setFlags_mode (o : AluOut) : (s.setFlags o).mode = s.mode := by simp [State.mode]

/-- The mode is the same. -/
@[simp] theorem State.setNz_mode (r : Word) : (s.setNz r).mode = s.mode := by simp [State.mode]

/-- The mode is the same. -/
@[simp] theorem State.orQ_mode (q : Bool) : (s.orQ q).mode = s.mode := by simp [State.mode]

/-! ## Jumps -/

/-- A value written to R15 without interworking (R24). -/
theorem writePcArm_next {v : Word} (h : writePcArm v s = .next t) : v.extractLsb' 0 2 = 0 ∧ t = s.jump v := by
  unfold writePcArm at h
  split at h
  · exact ⟨‹_›, by simpa using h.symm⟩
  · cases h

/-- An interworking jump (R210): the target is aligned for the state it selects. -/
theorem jumpExchange_next {v : Word} (h : jumpExchange v s = .next t) :
    (v.getLsbD 0 = true ∧ t = (s.setCpsr (Psr.setT s.cpsr true)).jump (v &&& ~~~1)) ∨
      (v.getLsbD 0 = false ∧ v.getLsbD 1 = false ∧ t = (s.setCpsr (Psr.setT s.cpsr false)).jump v) := by
  unfold jumpExchange at h
  split at h
  · exact .inl ⟨‹_›, by simpa using h.symm⟩
  · rename_i h0
    split at h
    · cases h
    · rename_i h1
      exact .inr ⟨eq_false_of_ne_true h0, eq_false_of_ne_true h1, by simpa using h.symm⟩

/-- A branch to a sought target (R205 (e)): the target is there. -/
theorem jumpTo_next {target : Option Word} {k : Word → State} (h : jumpTo target k = .next t) :
    ∃ v, target = some v ∧ t = k v := by
  unfold jumpTo at h
  split at h
  · cases h
  · exact ⟨_, rfl, by simpa using h.symm⟩

/-- An exception return (R325): there is an SPSR, with a legal mode in it. -/
theorem exceptionReturn_next {v : Word} (h : exceptionReturn v s = .next t) :
    ∃ p, s.spsr? = some p ∧ (Mode.ofBits (Psr.m p)).isSome = true ∧
      t = (s.setCpsr p).jump (returnTarget (Psr.t p) v) := by
  unfold exceptionReturn at h
  split at h
  · cases h
  · rename_i p hp
    split at h
    · exact ⟨p, hp, ‹_›, by simpa using h.symm⟩
    · cases h

/-- A loaded pc (R219). -/
theorem loadPc_next {v : Word} (h : loadPc v s = .next t) :
    (s.cp15.lt = true ∧ t = s.jump (returnTarget s.thumb v)) ∨ (s.cp15.lt = false ∧ jumpExchange v s = .next t) := by
  unfold loadPc at h
  split at h
  · exact .inl ⟨‹_›, by simpa using h.symm⟩
  · exact .inr ⟨eq_false_of_ne_true ‹_›, h⟩

/-- A relative target lies within the address space (R205 (e)). -/
theorem relativeTarget_some {base v : Word} {offset : Int} (h : relativeTarget base offset = some v) :
    (v.toNat : Int) = base.toNat + offset := by
  simp only [relativeTarget] at h
  split at h
  · rename_i hb
    obtain rfl : BitVec.ofInt 32 (base.toNat + offset) = v := by simpa using h
    rw [BitVec.toNat_ofInt]
    have : ((base.toNat : Int) + offset) % 2 ^ 32 = base.toNat + offset := Int.emod_eq_of_lt hb.1 hb.2
    simp only [Nat.cast_pow, Nat.cast_ofNat, this]
    exact Int.toNat_of_nonneg hb.1
  · simp at h

/-! ## Exceptions -/

/-- The status register after an exception entry (R312). -/
theorem Exc.newCpsr_fields (k : Exc) (p : Word) :
    Psr.m (k.newCpsr p) = k.mode.bits ∧ Psr.t (k.newCpsr p) = false ∧ Psr.i (k.newCpsr p) = true ∧
      Psr.f (k.newCpsr p) = (Psr.f p || decide (k = .fiq)) ∧ (k.newCpsr p).extractLsb' 8 24 = p.extractLsb' 8 24 := by
  refine ⟨?_, ?_, ?_, ?_, ?_⟩
  · rw [Psr.m, Exc.newCpsr]
    ext j hj
    simp only [BitVec.getElem_extractLsb', BitVec.getLsbD_append]
    simp [hj]
  · rw [Psr.t, Exc.newCpsr]
    simp only [BitVec.getLsbD_append]
    simp
  · rw [Psr.i, Exc.newCpsr]
    simp only [BitVec.getLsbD_append]
    simp
  · rw [Psr.f, Exc.newCpsr]
    simp only [BitVec.getLsbD_append]
    simp
  · rw [Exc.newCpsr]
    ext j hj
    simp only [BitVec.getElem_extractLsb', BitVec.getLsbD_append]
    simp [show ¬8 + j < 5 by omega, show ¬8 + j - 5 = 0 by omega, show ¬8 + j - 5 - 1 = 0 by omega,
      show ¬8 + j - 5 - 1 - 1 = 0 by omega, show 8 + j - 5 - 1 - 1 - 1 = j by omega, hj]

/-- The seven modes have legal numbers. -/
@[simp] theorem Mode.ofBits_bits (m : Mode) : Mode.ofBits m.bits = some m := by cases m <;> rfl

/-- After an exception entry the mode is the exception's. -/
theorem State.raise_mode (k : Exc) : (s.raise k).mode = k.mode := by
  have h := (Exc.newCpsr_fields k s.cpsr).1
  have : (s.raise k).cpsr = k.newCpsr s.cpsr := by
    unfold State.raise State.takeException
    simp
  simp [State.mode, this, h]

end Sys2Proof.Machine
end

