-- ==== Sys2Proof/Laws/Step.lean ====
section
/-! SUPPORT. What surrounds an instruction, said once: the clock at the start of a step, the end of an access, and the
handshake of a coprocessor instruction. -/

namespace Sys2Proof.Machine

variable {s t : State}

/-! ## The start of a step -/

/-- The clock moves no register of the core: only the ETM registers, the pulses and the marks of the handlers, and the AHB
write buffer. -/
theorem State.begun_core (s : State) :
    s.begun = { s with
      etm := s.begun.etm, out := s.begun.out, cp15 := { s.cp15 with procIdWr := false }
      fiqServed := s.begun.fiqServed, irqServed := s.begun.irqServed, ahb := s.begun.ahb } := by
  unfold State.begun State.settleAhb State.drainAhbOne State.clockEtm
  split <;> split <;> first | rfl | (split <;> rfl)

/-- It changes no byte that the core can read (R70). -/
theorem State.begun_memory (s : State) : SameMemory s s.begun := by
  intro p
  have h (u : State) (hi : u.itcm = s.itcm) (hd : u.dtcm = s.dtcm) (ha : u.ahb = s.ahb) : u.byteAt p = s.byteAt p := by
    cases p <;> simp [State.byteAt, hi, hd, ha]
  unfold State.begun State.settleAhb
  have hc : ∀ u : State, u = s.clockEtm.endPulses.leaveHandlers → u.byteAt p = s.byteAt p := by
    rintro u rfl
    refine h _ ?_ ?_ ?_ <;> · unfold State.clockEtm; split <;> rfl
  split
  · exact hc _ rfl
  · rw [byteAt_drainAhbOne, hc _ rfl]

/-! ## The end of an access -/

/-- An access as an instruction's last one (R318): its value, or the Data Abort. -/
theorem Access.finish_next {α : Type} {x : Access α} {k : α → State → Result} (h : x.finish k = .next t) :
    (∃ a u, x = .ok a u ∧ k a u = .next t) ∨ (∃ u, x = .abort u ∧ t = (u.raise .dataAbort).lateCancel) := by
  cases x with
  | ok a u => exact .inl ⟨a, u, rfl, h⟩
  | abort u => exact .inr ⟨u, rfl, by simpa [Access.finish, raiseDataAbort] using h.symm⟩
  | stop y => cases y <;> cases h

/-! ## Coprocessor instructions -/

/-- What a coprocessor instruction can do (R148, R149, R152): complete, go on waiting, take the Undefined Instruction
exception, or take the Data Abort. -/
theorem coprocessorInstr_next {n : Reg} {i : Instr} {limit : Nat} {move : Transfer} {k : List Word → State → Result}
    (h : coprocessorInstr n i limit move k s = .next t) :
    let b := beginCp n (Code.word (encode i)) s
    let r := handshakeCycles n limit move (b.2.cpReplies n) b.1 b.2
    (∃ ws u, r = .done ws u ∧ k ws (u.setWaiting none) = .next t) ∨
      (∃ ws u, r = .wait ws u ∧ t = u.setWaiting (some { instr := Code.word (encode i), moved := ws })) ∨
      (∃ u, r = .absent u ∧ t = (u.setWaiting none).raise .undefined) ∨
      (∃ u, r = .abort u ∧ t = ((u.setWaiting none).raise .dataAbort).lateCancel) := by
  unfold coprocessorInstr at h
  simp only at h ⊢
  generalize handshakeCycles _ _ _ _ _ _ = r at *
  cases r with
  | done ws u => exact .inl ⟨ws, u, rfl, h⟩
  | wait ws u => exact .inr (.inl ⟨ws, u, rfl, by simpa using h.symm⟩)
  | absent u => exact .inr (.inr (.inl ⟨u, rfl, by simpa [raiseUndefined] using h.symm⟩))
  | abort u => exact .inr (.inr (.inr ⟨u, rfl, by simpa [raiseDataAbort] using h.symm⟩))
  | stop x => cases x <;> cases h

end Sys2Proof.Machine
end

