-- ==== Sys2Proof/Tests/Slice0.lean ====
section
/-! SUPPORT. Tests. The words and the results expected come from spec/95_test_vectors.md and the examples of the rules, or
were worked out by hand from the rule named; free values and states that the spec leaves open are not tested. -/

namespace Sys2Proof.Tests

open Sys2Proof Sys2Proof.Machine

/-! ## Terms that stand for no encoding -/

theorem test_wf_idCode : Instr.wellFormed (.mrcIdCode .al 0 2) = false := by decide
theorem test_wf_p15 : Instr.wellFormed (.p15Other .al true 0 1 0 0 0) = false := by decide
theorem test_wf_p14 : Instr.wellFormed (.p14Other .al true 0 1 0 0 0) = false := by decide
theorem test_wf_external : ([.mcrr .al 0 0 15 0 0, .mrrc .al 0 0 14 0 0, .unallocCp .al false 0 0 15 0,
    .ldc .al (.offset true) false 0 0 14 0, .stc .al .unindexed false 0 0 15 0, .cdp .al 0 0 0 15 0 0,
    .mcr .al 0 0 0 14 0 0, .mrc .al 0 0 0 15 0 0] : List Instr).all (fun i => !i.wellFormed) = true := by decide
theorem test_wf_uncond : ([.unallocUncond 0xA000000, .unallocUncond 0x5D0F000] : List Instr).all
    (fun i => !i.wellFormed) = true := by decide
theorem test_wf_ext : Instr.wellFormed (.unallocExt .al false false false false 0 0 0 0) = false := by decide
theorem test_wf_misc : Instr.wellFormed (.unallocMisc .al false true 15 15 15 false false false true 0) = false := by decide
theorem test_wf_thumbMisc : Instr.wellFormed (.unallocThumbMisc 0x400) = false := by decide
theorem test_wf_thumbCond : Instr.wellFormed (.tBCond .al 0) = false := by decide
theorem test_wf_good : ([.mrcIdCode .al 0 1, .p15Other .al true 0 2 0 0 0, .ldc .al (.offset true) false 0 0 7 0,
    .unallocUncond 0, .tBCond .eq 0] : List Instr).all (fun i => i.wellFormed) = true := by decide

/-! ## Decoding: one word for each row, from the examples of the rules and spec/95_test_vectors.md, or written out from the
row's encoding where the spec has no example; the encoder gives the same word back. -/

/-- Each word decodes to its term, whose encoding it is. -/
def reads (nbits : Nat) (l : List (Nat × Instr)) : Bool :=
  l.all fun x => decide (decodeTableWord nbits x.1 = some x.2) && decide (encode x.2 = tableCode nbits x.1)

theorem test_decode_uncond : reads 32
    [(0xF551F010, .pldImm false 1 0x10), (0xF7D1F102, .pldReg true 1 2 .lsl 2), (0xFAFFFFFE, .blxImm false 0xFFFFFE),
      (0xFC012345, .unallocUncondLsm 0x012345), (0xFC412345, .unallocUncondMcrr 0x012345),
      (0xFD901704, .ldc2 (.offset true) false 0 1 7 4), (0xFD801704, .stc2 (.offset true) false 0 1 7 4),
      (0xFE1327A4, .cdp2 1 3 2 7 5 4), (0xFE4437D5, .mcr2 2 4 3 7 6 5), (0xFE5437D5, .mrc2 2 4 3 7 6 5),
      (0xF0000001, .unallocUncond 1)] = true := by decide
theorem test_decode_cp15_a : reads 32
    [(0xEE100F50, .mrcTcmSize .al 0), (0xEE100F30, .mrcIdCode .al 0 1), (0xEE110F10, .mrcControl .al 0),
      (0x1E012F10, .mcrControl .ne 2), (0xEE070F90, .mcrWaitForInterrupt .al 0),
      (0xEE0F0F58, .mcrWaitForInterruptLegacy .al 0), (0xEE070F9A, .mcrDrainWriteBuffer .al 0),
      (0xEE1D3F1F, .mrcProcId .al 3 15), (0xEE0D1F10, .mcrProcId .al 1 0), (0xEE3F0F11, .mrcConfigControl .al 0),
      (0xEE2F0F11, .mcrConfigControl .al 0)] = true := by decide
theorem test_decode_cp15_b : reads 32
    [(0xEE3F0F30, .mrcBistControl .al 0), (0xEE2F0F30, .mcrBistControl .al 0), (0xEE3F0F50, .mrcIBistAddress .al 0),
      (0xEE2F0F50, .mcrIBistAddress .al 0), (0xEE3F0F70, .mrcIBistGeneral .al 0),
      (0xEE2F0F70, .mcrIBistGeneral .al 0), (0xEE3F0FD0, .mrcDBistAddress .al 0),
      (0xEE2F0FD0, .mcrDBistAddress .al 0), (0xEE3F0FF0, .mrcDBistGeneral .al 0),
      (0xEE2F0FF0, .mcrDBistGeneral .al 0), (0xEE121F10, .p15Other .al true 0 2 1 0 0)] = true := by decide
theorem test_decode_cp14 : reads 32
    [(0xEE100E10, .mrcCommsStatus .al 0), (0xE112E10, .mrcCommsData .eq 2), (0xEE010E10, .mcrCommsData .al 0),
      (0xEE120E10, .mrcMonitorStatus .al 0), (0xEE020E10, .mcrMonitorStatus .al 0),
      (0xEE030E10, .p14Other .al false 0 3 0 0 0), (0xED901F04, .p15Transfer .al 0x1901 4),
      (0xEE132FA4, .p15Cdp .al 1 3 2 5 4), (0xED901E04, .p14Transfer .al 0x1901 4),
      (0xEE132EA4, .p14Cdp .al 1 3 2 5 4)] = true := by decide
theorem test_decode_coprocessor : reads 32
    [(0xEC421735, .mcrr .al 2 1 7 3 5), (0xEC521735, .mrrc .al 2 1 7 3 5),
      (0xEC001704, .unallocCp .al false 0 1 7 4), (0xED901704, .ldc .al (.offset true) false 0 1 7 4),
      (0xED801704, .stc .al (.offset true) false 0 1 7 4), (0xE1327A4, .cdp .eq 1 3 2 7 5 4),
      (0xEE4437D5, .mcr .al 2 4 3 7 6 5), (0xEE5437D5, .mrc .al 2 4 3 7 6 5)] = true := by decide
theorem test_decode_branch_multiple : reads 32
    [(0x1F000000, .swi .ne 0), (0xA000000, .b .eq 0), (0xEBFFE002, .bl .al 0xFFE002),
      (0xE8FD8001, .ldmReturn .al false true true 13 1), (0xE8D07F00, .ldmUser .al false true false 0 0x7F00),
      (0xE8900003, .ldm .al false true false 0 3), (0xE8C06000, .stmUser .al false true false 0 0x6000),
      (0xE8200006, .stm .al false false true 0 6), (0xE7F123F4, .undefinedArm .al 0xF891F 4)] = true := by decide
theorem test_decode_translated : reads 32
    [(0xE4B10004, .ldrtImm .al true 1 0 4), (0xE6B10002, .ldrtReg .al true 1 0 0 .lsl 2),
      (0xE4F10001, .ldrbtImm .al true 1 0 1), (0xE6F10002, .ldrbtReg .al true 1 0 0 .lsl 2),
      (0xE4A10004, .strtImm .al true 1 0 4), (0xE6A10002, .strtReg .al true 1 0 0 .lsl 2),
      (0xE4E10001, .strbtImm .al true 1 0 1), (0xE6E10002, .strbtReg .al true 1 0 0 .lsl 2)] = true := by decide
theorem test_decode_load_store : reads 32
    [(0xE4910004, .ldrImm .al .postIndexed true 1 0 4), (0xE69100C2, .ldrReg .al .postIndexed true 1 0 1 .asr 2),
      (0xE5D10003, .ldrbImm .al .offset true 1 0 3), (0xE7D10102, .ldrbReg .al .offset true 1 0 2 .lsl 2),
      (0xE5810004, .strImm .al .offset true 1 0 4), (0xE7810102, .strReg .al .offset true 1 0 2 .lsl 2),
      (0xE5C10003, .strbImm .al .offset true 1 0 3), (0xE7C10102, .strbReg .al .offset true 1 0 2 .lsl 2)] = true := by decide
theorem test_decode_multiply : reads 32
    [(0xE0000291, .mul .al false 0 0 2 1), (0xE0203291, .mla .al false 0 3 2 1),
      (0xE0412394, .unallocArith .al false false 1 2 3 4), (0xE0810392, .umull .al false 1 0 3 2),
      (0xE0A10392, .umlal .al false 1 0 3 2), (0xE0C10392, .smull .al false 1 0 3 2),
      (0xE0E10392, .smlal .al false 1 0 3 2), (0xE1020091, .swp .al 2 0 0 1), (0xE1420091, .swpb .al 2 0 0 1),
      (0xE1812394, .unallocExt .al true false false false 1 2 3 4)] = true := by decide
theorem test_decode_halfword : reads 32
    [(0xE14100B2, .strhImm .al true false false 1 0 2), (0xE18100B2, .strhReg .al true true false 1 0 0 2),
      (0xE1C020D8, .ldrdImm .al true true false 0 2 8), (0xE18020D4, .ldrdReg .al true true false 0 2 0 4),
      (0xE0C120F8, .strdImm .al false true false 1 2 8), (0xE08140F2, .strdReg .al false true false 1 4 0 2),
      (0xE0D100B2, .ldrhImm .al false true false 1 0 2), (0xE1B100B2, .ldrhReg .al true true true 1 0 0 2),
      (0xE1D100DB, .ldrsbImm .al true true false 1 0 11), (0xE19100D2, .ldrsbReg .al true true false 1 0 0 2),
      (0xE1D100FC, .ldrshImm .al true true false 1 0 12), (0xE19100F2, .ldrshReg .al true true false 1 0 0 2)] = true := by decide
theorem test_decode_status : reads 32
    [(0xE14F1000, .mrs .al true 15 1 0 0), (0xE121F000, .msrReg .al false 1 15 0 0),
      (0xE12FFF10, .bx .al 15 15 15 0), (0xE16F0F11, .clz .al 15 0 15 1), (0xE12FFF33, .blxReg .al 15 15 15 3),
      (0xE1020051, .qadd .al 2 0 0 1), (0xE1220051, .qsub .al 2 0 0 1), (0xE1420051, .qdadd .al 2 0 0 1),
      (0xE1620051, .qdsub .al 2 0 0 1)] = true := by decide
theorem test_decode_dsp : reads 32
    [(0xE1212374, .bkpt .al 0x123 4), (0xE1003281, .smlaxy .al false false 0 3 2 1),
      (0xE1203281, .smlawy .al false 0 3 2 1), (0xE12002A1, .smulwy .al false 0 0 2 1),
      (0xE14103A2, .smlalxy .al true false 1 0 3 2), (0xE16002A1, .smulxy .al true false 0 0 2 1),
      (0xE1012324, .unallocMisc .al false false 1 2 3 false false true false 4),
      (0xE321F01F, .msrImm .al false 1 15 0 0x1F)] = true := by decide
theorem test_decode_dp_0 : reads 32
    [(0xE3412534, .undefinedArm2 .al true 1 2 5 0x34), (0xE0010262, .andShift .al false 1 0 4 .ror 2),
      (0xE0010312, .andRegShift .al false 1 0 3 .lsl 2), (0xE21102FF, .andImm .al true 1 0 2 0xFF),
      (0xE0310001, .eorShift .al true 1 0 0 .lsl 1), (0xE0210332, .eorRegShift .al false 1 0 3 .lsr 2),
      (0xE2210001, .eorImm .al false 1 0 0 1), (0xE0510002, .subShift .al true 1 0 0 .lsl 2),
      (0xE0410352, .subRegShift .al false 1 0 3 .asr 2), (0xE25EF004, .subImm .al true 14 15 0 4),
      (0xE0610002, .rsbShift .al false 1 0 0 .lsl 2), (0xE0610372, .rsbRegShift .al false 1 0 3 .ror 2)] = true := by decide
theorem test_decode_dp_1 : reads 32
    [(0xE2710000, .rsbImm .al true 1 0 0 0), (0x810002, .addShift .eq false 1 0 0 .lsl 2),
      (0xE0810312, .addRegShift .al false 1 0 3 .lsl 2), (0xE28F0004, .addImm .al false 15 0 0 4),
      (0xE0A10002, .adcShift .al false 1 0 0 .lsl 2), (0xE0A10312, .adcRegShift .al false 1 0 3 .lsl 2),
      (0xE2A10001, .adcImm .al false 1 0 0 1), (0xE0D10002, .sbcShift .al true 1 0 0 .lsl 2),
      (0xE0C10312, .sbcRegShift .al false 1 0 3 .lsl 2), (0xE2C10001, .sbcImm .al false 1 0 0 1),
      (0xE0F10002, .rscShift .al true 1 0 0 .lsl 2), (0xE0E10312, .rscRegShift .al false 1 0 3 .lsl 2)] = true := by decide
theorem test_decode_dp_2 : reads 32
    [(0xE2F10000, .rscImm .al true 1 0 0 0), (0xE1100001, .tstShift .al 0 0 0 .lsl 1),
      (0xE1110312, .tstRegShift .al 1 0 3 .lsl 2), (0xE3100102, .tstImm .al 0 0 1 2),
      (0xE1310002, .teqShift .al 1 0 0 .lsl 2), (0xE1310312, .teqRegShift .al 1 0 3 .lsl 2),
      (0xE3300001, .teqImm .al 0 0 0 1), (0xE1510002, .cmpShift .al 1 0 0 .lsl 2),
      (0xE1510312, .cmpRegShift .al 1 0 3 .lsl 2), (0xE3500005, .cmpImm .al 0 0 0 5),
      (0xE1710002, .cmnShift .al 1 0 0 .lsl 2), (0xE1710312, .cmnRegShift .al 1 0 3 .lsl 2)] = true := by decide
theorem test_decode_dp_3 : reads 32
    [(0xE3700001, .cmnImm .al 0 0 0 1), (0xE1810822, .orrShift .al false 1 0 0x10 .lsr 2),
      (0xE1810312, .orrRegShift .al false 1 0 3 .lsl 2), (0xE3800A01, .orrImm .al false 0 0 10 1),
      (0xE1A0F001, .movShift .al false 0 15 0 .lsl 1), (0xE1B00211, .movRegShift .al true 0 0 2 .lsl 1),
      (0xE3B004FF, .movImm .al true 0 0 4 0xFF), (0xE1D10002, .bicShift .al true 1 0 0 .lsl 2),
      (0xE1C10312, .bicRegShift .al false 1 0 3 .lsl 2), (0xE3C0001F, .bicImm .al false 0 0 0 0x1F),
      (0xE1F00001, .mvnShift .al true 0 0 0 .lsl 1), (0xE1E00312, .mvnRegShift .al false 0 0 3 .lsl 2)] = true := by decide
theorem test_decode_thumb_4_32 : reads 32
    [(0xE3E00000, .mvnImm .al false 0 0 0 0)] = true := by decide
theorem test_decode_thumb_4_16 : reads 16
    [(0x108, .tLslImm 4 1 0), (0x808, .tLsrImm 0 1 0), (0x10C8, .tAsrImm 3 1 0), (0x1888, .tAddReg 2 1 0),
      (0x1A88, .tSubReg 2 1 0), (0x1DC8, .tAddImm3 7 1 0), (0x1E48, .tSubImm3 1 1 0), (0x20FF, .tMovImm 0 0xFF),
      (0x2805, .tCmpImm 0 5), (0x30C8, .tAddImm8 0 0xC8), (0x3801, .tSubImm8 0 1)] = true := by decide
theorem test_decode_thumb_5 : reads 16
    [(0x4008, .tAnd 1 0), (0x4048, .tEor 1 0), (0x4088, .tLslReg 1 0), (0x40C8, .tLsrReg 1 0),
      (0x4108, .tAsrReg 1 0), (0x4148, .tAdc 1 0), (0x4188, .tSbc 1 0), (0x41C8, .tRorReg 1 0), (0x4208, .tTst 1 0),
      (0x4248, .tNeg 1 0), (0x4288, .tCmpReg 1 0), (0x42C8, .tCmn 1 0)] = true := by decide
theorem test_decode_thumb_6 : reads 16
    [(0x4308, .tOrr 1 0), (0x4348, .tMul 1 0), (0x4388, .tBic 1 0), (0x43C8, .tMvn 1 0), (0x4440, .tAddHi 8 0),
      (0x4540, .tCmpHi 8 0), (0x4640, .tMovHi 8 0), (0x4770, .tBx 14 0), (0x4798, .tBlxReg 3 0),
      (0x4802, .tLdrLit 0 2), (0x5088, .tStrReg 2 1 0), (0x5288, .tStrhReg 2 1 0)] = true := by decide
theorem test_decode_thumb_7 : reads 16
    [(0x5488, .tStrbReg 2 1 0), (0x5688, .tLdrsbReg 2 1 0), (0x5888, .tLdrReg 2 1 0), (0x5A88, .tLdrhReg 2 1 0),
      (0x5C88, .tLdrbReg 2 1 0), (0x5E88, .tLdrshReg 2 1 0), (0x67C8, .tStrImm 0x1F 1 0), (0x6808, .tLdrImm 0 1 0),
      (0x77C8, .tStrbImm 0x1F 1 0), (0x7FC8, .tLdrbImm 0x1F 1 0), (0x87C8, .tStrhImm 0x1F 1 0),
      (0x88C8, .tLdrhImm 3 1 0)] = true := by decide
theorem test_decode_thumb_8 : reads 16
    [(0x9001, .tStrSp 0 1), (0x9801, .tLdrSp 0 1), (0xA002, .tAddPcImm 0 2), (0xA8FF, .tAddSpImm 0 0xFF),
      (0xB07F, .tAddSp 0x7F), (0xB082, .tSubSp 2), (0xB401, .tPush false 1), (0xBD00, .tPop true 0),
      (0xBE12, .tBkpt 0x12), (0xB100, .unallocThumbMisc 0x100), (0xC003, .tStmia 0 3), (0xC803, .tLdmia 0 3)] = true := by decide
theorem test_decode_thumb_9 : reads 16
    [(0xDE00, .undefinedThumb 0), (0xDFAB, .tSwi 0xAB), (0xD07F, .tBCond .eq 0x7F), (0xE3FF, .tB 0x3FF),
      (0xE87F, .unallocBlxSuffix 0x03F), (0xE87E, .tBlxSuffix 0x3F), (0xF000, .tBlPrefix 0),
      (0xF87E, .tBlSuffix 0x7E)] = true := by decide

/-! ## One step -/

/-- The result is a next state with this property. -/
def ok (r : Result) (k : State → Bool) : Bool :=
  match r with
  | .next t => k t
  | .fault _ => false
  | .refused _ => false

/-- The result is a stop of this kind. -/
def stops (r : Result) (x : Refusal) : Bool :=
  match r with
  | .next _ => false
  | .fault _ => false
  | .refused y => decide (x = y)

/-- The access never completes. -/
def faults (r : Result) : Bool :=
  match r with
  | .next _ => false
  | .fault x => decide (x = .accessNeverCompletes)
  | .refused _ => false

/-- The instruction at 0x8000 (spec/95_test_vectors.md), registers R0 to R3 given. -/
def at8000 (cpsr r0 r1 r2 r3 : Word) : State :=
  { State.reset with
    pc := 0x8000, cpsr := cpsr
    regs := ((((Vector.replicate 30 (0 : Word)).set 0 r0).set 1 r1).set 2 r2).set 3 r3 }

/-- The words of image M on the AHB, at 0x1000. -/
def imageM (s : State) : State :=
  { s with ahb := { s.ahb with
    mem := [(0x1000, 0x11), (0x1001, 0x22), (0x1002, 0x33), (0x1003, 0x44), (0x1004, 0x55), (0x1005, 0x66), (0x1006, 0x77),
      (0x1007, 0x88)] } }

/-- Run an ARM word on a state. -/
def arm (w : Word) (s : State) : Result := exec (decode (.arm w)) s

/-- Run a Thumb halfword on a state. -/
def thumb (h : BitVec 16) (s : State) : Result := exec (decode (.thumb h)) s

/-- The control bits A and LT set. -/
def State.control (s : State) (lt a : Bool) : State := { s with cp15 := { s.cp15 with lt := lt, a := a } }

/-- DP1 and DP3. -/
theorem test_adds : ok (arm 0xE0910002 (at8000 0x10 0 0x7FFFFFFF 1 0)) (fun t =>
    decide (t.reg 0 = 0x80000000 ∧ t.cpsr = 0x90000010 ∧ t.pc = 0x8004)) = true := by decide
theorem test_subs : ok (arm 0xE0510002 (at8000 0x10 0 5 5 0)) (fun t =>
    decide (t.reg 0 = 0 ∧ t.cpsr = 0x60000010)) = true := by decide
/-- DP21, DP22: shifts by 32 and 33. -/
theorem test_movs_lsl_32 : ok (arm 0xE1B00211 (at8000 0x10 0 3 32 0)) (fun t =>
    decide (t.reg 0 = 0 ∧ t.cpsr = 0x60000010)) = true := by decide
theorem test_movs_lsl_33 : ok (arm 0xE1B00211 (at8000 0x20000010 0 3 33 0)) (fun t =>
    decide (t.reg 0 = 0 ∧ t.cpsr = 0x40000010)) = true := by decide
/-- R189: MULS keeps C and V. -/
theorem test_muls : ok (arm 0xE0100291 (at8000 0x30000010 0 0x10000 0x10000 0)) (fun t =>
    decide (t.reg 0 = 0 ∧ t.cpsr = 0x70000010)) = true := by decide
/-- R200: QADD saturates and sets Q. -/
theorem test_qadd : ok (arm 0xE1020051 (at8000 0x10 0 0x7FFFFFFF 1 0)) (fun t =>
    decide (t.reg 0 = 0x7FFFFFFF ∧ t.cpsr = 0x08000010)) = true := by decide
/-- R204: CLZ of 0x00010000. -/
theorem test_clz : ok (arm 0xE16F0F11 (at8000 0x10 0 0x10000 0 0)) (fun t => decide (t.reg 0 = 15)) = true := by decide
/-- BS2: a branch to itself. -/
theorem test_b : ok (arm 0xEAFFFFFE (at8000 0x10 0 0 0 0)) (fun t => decide (t.pc = 0x8000)) = true := by decide
/-- BS8: BLX R3. -/
theorem test_blx : ok (arm 0xE12FFF33 (at8000 0x10 0 0 0 0x9001)) (fun t =>
    decide (t.reg 14 = 0x8004 ∧ t.cpsr = 0x30 ∧ t.pc = 0x9000)) = true := by decide
/-- BS20, BS26: MSR. -/
theorem test_msr : ok (arm 0xE328F20F (at8000 0x08000010 0 0 0 0)) (fun t =>
    decide (t.cpsr = 0xF0000010 ∧ t.pc = 0x8004)) = true := by decide
theorem test_msr_reserved : stops (arm 0xE121F000 (at8000 0xD3 0x100 0 0 0)) .psrReservedBits = true := by decide
/-- EX1: SWI in User mode. -/
theorem test_swi : ok (arm 0xEF123456 (at8000 0x60000010 0 0 0 0)) (fun t =>
    decide (t.reg 14 = 0x8004 ∧ t.spsr? = some 0x60000010 ∧ t.cpsr = 0x60000093 ∧ t.pc = 8)) = true := by decide
/-- BS32: BKPT. -/
theorem test_bkpt : ok (arm 0xE12ABC7D (at8000 0x13 0 0 0 0)) (fun t =>
    decide (t.reg 14 = 0x8004 ∧ t.spsr? = some 0x13 ∧ t.cpsr = 0x97 ∧ t.pc = 0xC)) = true := by decide
/-- LS10: an unaligned word is rotated. -/
theorem test_ldr_unaligned : ok (arm 0xE5910000 (imageM (at8000 0x10 0 0x1003 0 0))) (fun t =>
    decide (t.reg 0 = 0x33221144 ∧ t.pc = 0x8004)) = true := by decide
/-- LS16: the low address bits of a word store are ignored. -/
theorem test_str_unaligned : ok (arm 0xE5810000 (at8000 0x10 0xDEADBEEF 0x2002 0 0)) (fun t =>
    decide (t.ahb.mem.readWord 0x800 = 0xDEADBEEF)) = true := by decide
/-- LS28: an alignment fault. -/
theorem test_ldrh_alignment : ok (arm 0xE1D100B1 (State.control (at8000 0x10 0 0x1000 0 0) false true)) (fun t =>
    decide (t.reg 14 = 0x8008 ∧ t.spsr? = some 0x10 ∧ t.cpsr = 0x97 ∧ t.pc = 0x10)) = true := by decide
/-- LS40: SWP with one register twice. -/
theorem test_swp : ok (arm 0xE1020090 (imageM (at8000 0x10 0xAAAAAAAA 0 0x1000 0))) (fun t =>
    decide (t.reg 0 = 0x44332211 ∧ t.ahb.mem.readWord 0x400 = 0xAAAAAAAA)) = true := by decide
/-- R237: LDMIA of two words. -/
theorem test_ldm : ok (arm 0xE8900006 (imageM (at8000 0x10 0x1000 0 0 0))) (fun t =>
    decide (t.reg 1 = 0x44332211 ∧ t.reg 2 = 0x88776655 ∧ t.reg 0 = 0x1000)) = true := by decide
/-- LM16: STMIB. -/
theorem test_stmib : ok (arm 0xE9800006 (at8000 0x10 0x2000 10 11 0)) (fun t =>
    decide (t.ahb.mem.readWord 0x801 = 10 ∧ t.ahb.mem.readWord 0x802 = 11 ∧ t.pc = 0x8004)) = true := by decide
/-- TH3, TH15, TH21. -/
theorem test_thumb_lsr_32 : ok (thumb 0x0808 (at8000 0x30 0 0x80000000 0 0)) (fun t =>
    decide (t.reg 0 = 0 ∧ t.cpsr = 0x60000030 ∧ t.pc = 0x8002)) = true := by decide
theorem test_thumb_sub : ok (thumb 0x3801 (at8000 0x30 0 0 0 0)) (fun t =>
    decide (t.reg 0 = 0xFFFFFFFF ∧ t.cpsr = 0x80000030)) = true := by decide
/-- TH93: BLX R3 from Thumb to ARM state. -/
theorem test_thumb_blx : ok (thumb 0x4798 (at8000 0x30 0 0 0 0x9000)) (fun t =>
    decide (t.reg 14 = 0x8003 ∧ t.cpsr = 0x10 ∧ t.pc = 0x9000)) = true := by decide
/-- TH63: LDRSB. -/
theorem test_thumb_ldrsb : ok (thumb 0x5688 (imageM (at8000 0x30 0 0x1000 7 0))) (fun t =>
    decide (t.reg 0 = 0xFFFFFF88)) = true := by decide
/-- TH81: B backwards. -/
theorem test_thumb_b : ok (thumb 0xE400 (at8000 0x30 0 0 0 0)) (fun t => decide (t.pc = 0x7804)) = true := by decide
/-- S1, CP17: the ID code; a coprocessor instruction that nobody accepts. -/
theorem test_idCode : ok (arm 0xEE100F10 (at8000 0xD3 0 0 0 0)) (fun t => decide (t.reg 0 = 0x41259661)) = true := by decide
theorem test_cdp_absent : ok (arm 0xEE1327A4 (at8000 0x1F 0 0 0 0)) (fun t =>
    decide (t.reg 14 = 0x8004 ∧ t.spsr? = some 0x1F ∧ t.cpsr = 0x9B ∧ t.pc = 4)) = true := by decide
/-- R124: CP15 in User mode. -/
theorem test_cp15_user : ok (arm 0xEE100F10 (at8000 0x10 0 0 0 0)) (fun t =>
    decide (t.reg 0 = 0 ∧ t.cpsr = 0x9B ∧ t.pc = 4)) = true := by decide
/-- CP4: the TCM sizes of two 16KB TCMs. -/
theorem test_tcmSize : ok (arm 0xEE101F50 (at8000 0xD3 0 0 0 0)) (fun t => decide (t.reg 1 = 0x00140140)) = true := by decide
/-- EX7: FIQ comes before IRQ. -/
theorem test_fiq_first : ok (step { at8000 0x20000010 0 0 0 0 with
      pc := 0x8024, pins := { Pins.reset with nfiq := false, nirq := false } }) (fun t =>
    decide (t.reg 14 = 0x8028 ∧ t.spsr? = some 0x20000010 ∧ t.cpsr = 0x200000D1 ∧ t.pc = 0x1C)) = true := by decide
/-- MOV R0, #1 as the first instruction after reset. -/
theorem test_first_step : ok (step (State.reset.withFetchWord 32 0xE3A00001)) (fun t =>
    decide (t.reg 0 = 1 ∧ t.pc = 4)) = true := by decide
theorem test_first_thumb_step : ok (step (State.reset.withFetchWord 16 0x2001)) (fun t =>
    decide (t.reg 0 = 1 ∧ t.pc = 2)) = true := by decide

/-! ## Rules between the instructions, one step each -/

/-- R303: a BL suffix without a prefix takes R14 as it is, whatever it holds. -/
theorem test_bl_suffix_alone : ok (thumb 0xF800 ((at8000 0x30 0 0 0 0).setReg 14 0xFFFFF002)) (fun t =>
    decide (t.pc = 0xFFFFF002 ∧ t.reg 14 = 0x8003)) = true := by decide
/-- R117: BL from address 0, first 4096 bytes back, then 4094 on, and 4090 on, below address 0. -/
theorem test_bl_pair_near_zero :
    let s : State := { at8000 0x30 0 0 0 0 with pc := 0 }
    ok (thumb 0xF7FF s) (fun t => ok (thumb 0xFFFF t) (fun u => decide (u.pc = 2 ∧ u.reg 14 = 5 ∧ u.prefixes = [])) &&
      stops (thumb 0xFFFD t) .addressWrap) = true := by decide
/-- R64: an instruction fetched in a privileged mode, from a region that answers a User fetch with ERROR, keeps its mark. -/
theorem test_fetch_mark_kept :
    let s : State := at8000 0x10 0 0 0 0
    let held : Fetched := ⟨0x8000, .arm 0, false, false, false, false, false⟩
    let u : State := { s with ahb := { s.ahb with err := [⟨0x8000, 4, false, false, true, true⟩] } }
    (heldOrNew held u).1 = held ∧ (u.ipbWord 0x8000).err = true ∧ (u.newContent held { held with err := true }) = held := by
  decide
/-- R302: a handler that runs the same pair between the halves uses its own note. -/
theorem test_bl_pair_interrupted :
    let s : State := { at8000 0x30 0 0 0 0 with pc := 0x100 }
    ok (thumb 0xF7FF s) (fun t => ok (thumb 0xF7FF { t with pc := 0x100 }) (fun u => ok (thumb 0xFFFE u) (fun v =>
      ok (thumb 0xFFFE ({ v with pc := 0x102 }.setReg 14 (t.reg 14))) (fun w =>
        decide (v.pc = 0x100 ∧ w.pc = 0x100 ∧ w.prefixes = []))))) = true := by decide
/-- R335: one bit of DMAS[1:0] masked, the other compared; ITBIT of a fetch. -/
theorem test_unit_size :
    let u : WatchUnit := { WatchUnit.off with onData := true, size := 0b10, sizeMask := 0b01 }
    let v : WatchUnit := { WatchUnit.off with itbit := some true }
    (∀ x ∈ [(Size.byte, false), (.half, false), (.word, true)], u.seesKind (dataCycle true false x.1 0 none) = x.2) ∧
      v.seesKind { dataCycle false false .half 0 none with data := false } = true ∧
      v.seesKind { dataCycle false false .word 0 none with data := false } = false := by decide
/-- R324: an interrupt abandons an LDC that waits after a watched word: the entry, then debug state. -/
theorem test_watched_wait_abandoned :
    let s : State := at8000 0x10 0 0 0 0
    let t := ({ s with dbg := { s.dbg with watch := .hit }
                       cp := ⟨[⟨7, [.last 0], []⟩], some ⟨0xED100700, []⟩⟩ } : State).enter .irq
    t.dbg.inDebug = true ∧ t.pc = 0x18 ∧ t.cp.waiting = none ∧ t.dbg.watch = .none := by decide
/-- Two words of one burst in the AHB write buffer. -/
def twoBuffered : State :=
  let s := at8000 0xD3 0 0 0 0
  { s with ahb := { s.ahb with buf := [⟨0x1000, .word, false, 15, [7, 8]⟩] } }
/-- R70: wait for interrupt causes the words in the AHB write buffer to be written, the next step writes one. -/
theorem test_wfi_due : ok (arm 0xEE070F90 twoBuffered) (fun t => decide (t.standby = true ∧ t.ahb.due = 2) &&
    ok (step t) (fun u => decide (u.ahb.due = 1 ∧ u.ahb.mem.readWord 0x400 = 7 ∧ u.ahb.bufWords = 1))) = true := by decide
/-- R333: at a debug request alone a waiting CDP completes; R348, R142: the data of a peek that the TCM has not answered. -/
theorem test_debug_request_waits :
    let s : State := at8000 0x10 0 0 0 0
    ok (step { s with pins := { s.pins with dbgen := true, edbgrq := true }
                      cp := ⟨[⟨7, [.last 0], []⟩], some ⟨0xEE000700, []⟩⟩ }) (fun t =>
      decide (t.dbg.inDebug = false ∧ t.pc = 0x8004 ∧ t.cp.waiting = none)) = true := by decide
theorem test_peek_hangs :
    let s : State := at8000 0xD3 0 0 0 0
    let e : Bist := { Bist.reset with enable := true, pause := true, access := some (.peek 4) }
    faults (arm 0xEE3F0F70 { s with cp15 := { s.cp15 with bistI := e }, pins := { s.pins with itcmHung := true } }) = true := by
  decide

/-! ## Witnesses: a state and operands that meet the hypotheses of each statement -/

/-- User mode, ARM state. -/
def user : State := at8000 0x10 0 0 0 0
/-- Supervisor mode, ARM state. -/
def svc : State := at8000 0xD3 0 0 0 0
/-- User mode, Thumb state. -/
def tUser : State := at8000 0x30 0 0 0 0
/-- Base registers at the end of a page. -/
def based : State := at8000 0x13 0x2000 0x2FFC 0x3001 0xFFFFFFFC
/-- A region that answers ERROR at 0 to 15. -/
def failing (s : State) : State := { s with ahb := { s.ahb with err := [⟨0, 16, true, true, true, false⟩] } }
/-- Alignment checking on. -/
def checked (s : State) : State := State.control s false true
/-- Coprocessor 7 is attached and will drive these cycles. -/
def answering (rs : List CpReply) (s : State) : State :=
  { s with cp := { s.cp with units := [{ num := 7, replies := rs, log := [] }] } }
/-- These interfaces hold their accesses for ever. -/
def hung (itcm dtcm ahb : Bool) (s : State) : State :=
  { s with pins := { s.pins with itcmHung := itcm, dtcmHung := dtcm, ahbHung := ahb } }

/-- R158: MRC p7, 0, R2, c0, c0, 0 gets the word that the coprocessor drives. -/
theorem test_mrc : ok (arm 0xEE102710 (answering [.last 0x1234] (at8000 0x10 0 0 0 0))) (fun t =>
    decide (t.reg 2 = 0x1234 ∧ t.pc = 0x8004)) = true := by decide

/-- R25: five instructions on after a watchpoint in ARM state, and the return by SUB PC, PC, #20. -/
theorem test_watched_pc : (enterDebugWatched (at8000 0x10 0 0 0 0)).dbg.pc = 0x8014 ∧
    (match restartBack 20 (enterDebugWatched (at8000 0x10 0 0 0 0)) with
      | .ok t => decide (t.pc = 0x8000 ∧ t.dbg.inDebug = false)
      | .error _ => false) = true := by decide

/-- A word read at an address completes. -/
def reads4 (s : State) (a : Word) : Bool :=
  !s.pins.dbgen && !s.alignFault .word a && s.mapped (alignTo .word a) && !s.readFails false .word (alignTo .word a)

/-- A word write at an address completes. -/
def writes4 (s : State) (a : Word) : Bool :=
  !s.pins.dbgen && !s.alignFault .word a && s.mapped (alignTo .word a) && !s.writeFails false false (alignTo .word a)

theorem all_readable {s : State} {l : List Word} (h : l.all (reads4 s) = true) : ∀ a ∈ l, s.readable false .word a := by
  intro a ha
  have := List.all_eq_true.mp h a ha
  simp only [reads4, Bool.and_eq_true, Bool.not_eq_true'] at this
  exact ⟨.inl this.1.1.1, this.1.1.2, this.1.2, this.2⟩

theorem all_writable {s : State} {l : List Word} (h : l.all (writes4 s) = true) :
    ∀ a ∈ l, s.writable false false .word a := by
  intro a ha
  have := List.all_eq_true.mp h a ha
  simp only [writes4, Bool.and_eq_true, Bool.not_eq_true'] at this
  exact ⟨.inl this.1.1.1, this.1.1.2, this.1.2, this.2⟩

theorem witness_data_processing :
    AluOp.writes .mvn = true ∧ AluOp.writes .cmp = false ∧ Cond.holds .al user.cpsr = true ∧ (14 : Reg) ≠ 15 := by decide
theorem witness_shifter : 0 < 32 ∧ 31 < 32 := by decide
theorem witness_register_restrictions :
    Cond.holds .al user.cpsr = true ∧ AluOp.writes .add = true ∧ AluOp.add ≠ .mov ∧ AluOp.add ≠ .mvn ∧ (0 : Reg) ≠ 15 := by
  decide
theorem witness_multiply : Cond.holds .al user.cpsr = true ∧ ([0, 1, 2, 14] : List Reg).Pairwise (· ≠ ·) ∧
    ∀ r ∈ ([0, 1, 2, 14] : List Reg), r ≠ 15 := by decide
theorem witness_failed_condition : condOf (.b .eq 0) = some .eq ∧ Cond.holds .eq user.cpsr = false := by decide
theorem witness_reserved_fields : Cond.holds .al user.cpsr = true ∧ (1 : Reg) ≠ 0 ∧ (14 : Reg) ≠ 15 ∧ (7 : BitVec 3) ≠ 0 := by
  decide
theorem witness_branch :
    Cond.holds .al user.cpsr = true ∧ (0 : Int) ≤ (0x8000 : Word).toNat + 8 + 4 * (0x7FFFFF : BitVec 24).toInt ∧
      (0x8000 : Word).toNat + 8 + 4 * (0x7FFFFF : BitVec 24).toInt < 4294967296 ∧
      (0x8000 : Word).toNat + 8 + 4 * (0x800000 : BitVec 24).toInt < 0 ∧
      4294967296 ≤ (0xFFFFFFF8 : Word).toNat + 8 + 4 * (0 : BitVec 24).toInt := by decide
theorem witness_exchange : (at8000 0x10 1 0 0 0).reg 0 = 1 ∧ (at8000 0x10 4 0 0 0).reg 0 = 4 ∧ (at8000 0x10 2 0 0 0).reg 0 = 2 ∧
    (1 : Word).toNat % 2 = 1 ∧ (4 : Word).toNat % 4 = 0 ∧ (2 : Word).toNat % 4 = 2 ∧ (14 : Reg) ≠ 15 := by decide
theorem witness_exchange_wrap : 4294967296 ≤ (0xFFFFFFF8 : Word).toNat + 8 ∧ 4294967296 ≤ (0xFFFFFFFC : Word).toNat + 4 ∧
    (0xFFFFFFF4 : Word).toNat + 8 < 4294967296 := by decide
theorem witness_status_read : svc.mode.spsrIndex = some 2 ∧ user.mode = .usr ∧ Cond.holds .al svc.cpsr = true ∧ (0 : Reg) ≠ 15 := by
  decide
/-- MSR CPSR_fc with a legal value, an illegal mode, T set, a reserved bit set; and a field mask of zero. -/
theorem witness_status_write :
    svc.privileged = true ∧ user.privileged = false ∧ (0xF80000D0 : Word) &&& 0x07FFFF00 = 0 ∧
      (0xF80000D0 : Word) &&& 0x20 = 0 ∧
      (Mode.ofBits (Psr.m (replaceBits svc.cpsr 0xF80000D0 (fieldBits 9 &&& 0xF80000DF)))).isSome = true ∧
      Mode.ofBits (Psr.m (replaceBits svc.cpsr 0xF80000C0 (fieldBits 9 &&& 0xF80000DF))) = none ∧
      (0xF80000C0 : Word) &&& 0x07FFFF00 = 0 ∧ (0x20 : Word) &&& 0x20 ≠ 0 ∧ (0x100 : Word) &&& 0x07FFFF00 ≠ 0 ∧
      svc.mode.spsrIndex = some 2 ∧ (9 : BitVec 4) ≠ 0 := by decide
theorem witness_exception_instructions : Cond.holds .al user.cpsr = true ∧ Cond.eq ≠ .al := by decide
theorem witness_exception_return :
    (Mode.ofBits (Psr.m user.cpsr)).isSome = true ∧ user.dbg.inDebug = false ∧ user.pcAligned ∧ tUser.pcAligned := by
  unfold State.pcAligned
  decide
theorem witness_byteOrder : (0xFFFFFFFC : Word).toNat % 4 = 0 ∧ 3 < 4 ∧ 1 < 2 := by decide
theorem witness_load : based.loadOf (.ldrImm .al .preIndexed true 1 0 3) = some ⟨.al, false, .word, false, 0, 1, ⟨0x2FFF, some 0x2FFF⟩⟩ ∧
    Cond.holds .al based.cpsr = true ∧ (0 : Reg) ≠ 15 ∧ based.readable false .word 0x2FFF ∧
    armTransfer (.ldrImm .al .preIndexed true 1 0 3) = true ∧ misaligned .half 0x3000 = false := by
  unfold State.readable State.unwatched
  decide
theorem witness_load_hung : (hung false false true based).alignFault .word 0x2FFF = false ∧
    (hung false false true based).routeData (alignTo .word 0x2FFF) = .ahb ∧ (hung false false true based).pins.ahbHung = true := by
  decide
theorem witness_load_pc :
    (imageM (at8000 0x10 0 0x1000 0 0)).loadOf (.ldrImm .al .offset true 1 15 0) = some ⟨.al, false, .word, false, 15, 1, ⟨0x1000, none⟩⟩ ∧
      (imageM (at8000 0x10 0 0x1000 0 0)).readable false .word 0x1000 ∧
      (imageM (at8000 0x10 0 0x1000 0 0)).loaded .word 0x1000 = 0x44332211 ∧ (0x44332211 : Word).toNat % 2 = 1 ∧
      based.loaded .word 0x1000 = 0 ∧ based.cp15.lt = false ∧ (State.control based true false).cp15.lt = true ∧
      (0x2FFD : Word).toNat % 4 ≠ 0 ∧ based.cp15.a = false := by
  unfold State.readable State.unwatched
  decide
theorem witness_load_pc_b10 :
    ({ based with ahb := { based.ahb with mem := [(0x1000, 2)] } } : State).loaded .word 0x1000 = 2 := by decide
theorem witness_store : based.storeOf (.strbImm .al .postIndexed false 1 2 4095) = some ⟨.al, false, .byte, 2, 1, ⟨0x2FFC, some 0x1FFD⟩⟩ ∧
    based.memoryInForm ∧ based.writable false false .byte 0x2FFC ∧ misaligned .byte 0x2FFC = false := by
  unfold State.memoryInForm Tcm.inForm State.writable State.unwatched
  decide
theorem witness_abort :
    (failing user).loadOf (.ldrImm .al .offset true 1 0 12) = some ⟨.al, false, .word, false, 0, 1, ⟨12, none⟩⟩ ∧
      (failing user).readFails false .word (alignTo .word 15) = true ∧ (failing user).mapped (alignTo .word 12) = true ∧
      (failing user).storeOf (.strImm .al .offset true 1 0 12) = some ⟨.al, false, .word, 0, 1, ⟨12, none⟩⟩ ∧
      (failing user).writeFails false false (alignTo .word 12) = true ∧ (failing user).unwatched ∧
      (checked user).alignFault .half 1 = true := by
  unfold State.unwatched
  decide
/-- A swap whose read, and one whose write alone, is answered with ERROR. -/
theorem witness_abort_swap :
    (failing (at8000 0x10 0 8 0 0)).readAborts false .byte 8 ∧
      ({ user with ahb := { user.ahb with err := [⟨0, 16, false, true, false, false⟩] } } : State).writeAborts false true .word 12 ∧
      ([1, 0, 2] : List Reg).Pairwise (· ≠ ·) := by
  unfold State.readAborts State.writeAborts State.unwatched
  decide
/-- LDRD and STRD over the end of the region that fails, and one that is not aligned with A = 1. -/
theorem witness_abort_double :
    let s : State := { based with ahb := { based.ahb with err := [⟨0x2004, 4, true, true, true, false⟩] } }
    s.readable false .word 0x2000 ∧ s.readAborts false .word (0x2000 + 4) ∧ s.writable false false .word 0x2000 ∧
      s.writeAborts false false .word (0x2000 + 4) ∧ (failing s).readAborts false .word 8 ∧
      (failing s).writeAborts false false .word 8 ∧ s.between = [] ∧ (checked s).cp15.a = true ∧ (0x2004 : Word).toNat % 8 ≠ 0 ∧
      addressMode3 true true false (s.reg 0) 4 = some ⟨0x2004, none⟩ := by
  unfold State.readAborts State.writeAborts State.readable State.writable State.unwatched
  decide
theorem witness_excluded_more : (2 : Reg) ∈ listRegs (4 : BitVec 15) ∧ svc.mode ≠ .usr ∧ svc.mode ≠ .sys ∧ user.cp15.a = false ∧
    (3 : Reg).toNat % 2 = 1 ∧ addressMode3 true true false (user.reg 0) 1 = some ⟨1, none⟩ ∧ (1 : Word).toNat % 2 = 1 ∧
    (1 : Word).toNat % 8 ≠ 0 := by decide
theorem witness_excluded : transferLegal true 1 1 none false = false ∧ transferLegal false 1 15 none true = false ∧
    transferLegal true 15 1 none false = false ∧ transferLegal false 1 2 (some 15) false = false ∧
    transferLegal true 1 2 (some 1) true = false ∧ (1 : Reg) ∈ listRegs (0x8002 : BitVec 16) ∧ user.mode = .usr := by decide
theorem witness_doubleword : (2 : Reg).toNat % 2 = 0 ∧ (2 : Reg) ≠ 14 ∧ addressMode3 false true false (based.reg 0) 8 = some ⟨0x2000, some 0x2008⟩ ∧
    (0x2000 : Word).toNat % 8 = 0 ∧ (0 : Reg) ≠ 2 + 1 ∧ transferLegal true 0 2 none true = true ∧
    based.readable false .word 0x2000 ∧ based.readable false .word (0x2000 + 4) ∧
    based.writable false false .word 0x2000 ∧ based.writable false false .word (0x2000 + 4) := by
  unfold State.readable State.writable State.unwatched
  decide
/-- DMA, or another master, writes the second word of an LDRD between its two reads. -/
theorem witness_doubleword_between :
    let s : State := { based with between := [[.ahbWrite 0x2004 1]] }
    (match memRead false .word 0x2000 s with
      | .ok lo s1 => decide (lo = 0) && !s1.betweenAccesses.pins.dbgen &&
          s1.betweenAccesses.mapped 0x2004 && !s1.betweenAccesses.readFails false .word 0x2004 &&
          decide (s1.betweenAccesses.loaded .word 0x2004 = 1)
      | .abort _ => false
      | .stop _ => false) = true := by decide
theorem witness_swap : based.readable false .word (based.reg 2) ∧ based.writable false true .word (based.reg 2) ∧
    ([2, 0, 1] : List Reg).Pairwise (· ≠ ·) := by
  unfold State.readable State.writable State.unwatched
  decide
theorem witness_thumb_unaligned :
    (at8000 0x30 0 0x1001 0 0).loadOf (.tLdrImm 0 1 0) = some ⟨.al, false, .word, false, 0, 0, ⟨0x1001, none⟩⟩ ∧
      misaligned .word 0x1001 = true ∧ (at8000 0x30 0 0x1001 0 0).readable false .word 0x1001 ∧
      (at8000 0x30 0 0x1001 0 0).cp15.a = false ∧
      (at8000 0x30 0 0x1001 0 0).storeOf (.tStrhImm 0 1 0) = some ⟨.al, false, .half, 0, 0, ⟨0x1001, none⟩⟩ ∧
      misaligned .half 0x1001 = true ∧ (at8000 0x30 0 0x1001 0 0).writable false false .word (alignTo .word 0x1001) := by
  unfold State.readable State.writable State.unwatched
  decide
/-- LDMIA R1!, {R2, R15} and LDM of the User bank, at the end of a page. -/
theorem witness_load_multiple :
    based.multipleLoad (.ldm .al false true true 1 0x8004) = some ⟨.al, .svc, 1, [2, 15], 0x2FFC, some 0x3004, false⟩ ∧
      based.multipleLoad (.ldmUser .al false true false 1 0x6000) = some ⟨.al, .usr, 1, [13, 14], 0x2FFC, none, true⟩ ∧
      (wordAddresses 0x2FFC 2).getLast?.map (based.loaded .word) = some 0 ∧ (15 : Reg) ∈ ([2, 15] : List Reg) ∧
      (15 : Reg) ∉ ([13, 14] : List Reg) := by decide
/-- The last word with its low bits b01 and b10, and LT = 1. -/
theorem witness_load_multiple_pc :
    let s (b : Byte) : State := { based with ahb := { based.ahb with mem := [(0x3000, b)] } }
    (wordAddresses 0x2FFC 2).getLast?.map ((s 1).loaded .word) = some 1 ∧ (1 : Word).toNat % 2 = 1 ∧
      (wordAddresses 0x2FFC 2).getLast?.map ((s 2).loaded .word) = some 2 ∧ (2 : Word).toNat % 4 = 2 ∧
      (s 3).cp15.lt = false ∧ (State.control (s 3) true false).cp15.lt = true ∧ based.between = [] := by decide
theorem witness_load_multiple_reads : ∀ a ∈ wordAddresses 0x2FFC 2, based.readable false .word a := all_readable (by decide)
theorem witness_load_multiple_return :
    svc.mode.spsrIndex = some 2 ∧
      (Mode.ofBits (Psr.m ({ svc with spsr := svc.spsr.set 2 0x10 } : State).spsr[2])).isSome = true ∧
      svc.mode4 .al .svc false true true 13 (listRegs (1 : BitVec 15) ++ [15]) false = some ⟨.al, .svc, 13, [0, 15], 0, some 8, false⟩ ∧
      (13 : Reg) ∉ listRegs (1 : BitVec 15) := by decide
theorem witness_load_multiple_return_reads : ∀ a ∈ wordAddresses 0 2,
    ({ svc with spsr := svc.spsr.set 2 0x10 } : State).readable false .word a := all_readable (by decide)
theorem witness_store_multiple :
    based.multipleStore (.tPush true 0x81) = some ⟨.al, .svc, 13, [0, 7, 14], 0xFFFFFFF4, some 0xFFFFFFF4, false⟩ ∧
      based.memoryInForm := by
  unfold State.memoryInForm Tcm.inForm
  decide
theorem witness_store_multiple_writes : ∀ a ∈ wordAddresses 0xFFFFFFF4 3, based.writable false false .word a :=
  all_writable (by decide)
theorem witness_aborted_multiple :
    (failing svc).multipleLoad (.ldm .al false true false 0 0x1E) = some ⟨.al, .svc, 0, [1, 2, 3, 4], 0, none, false⟩ ∧
      (wordAddresses 0 4).all (fun a => (failing svc).mapped (alignTo .word a)) = true ∧
      (failing svc).readFails false .word (alignTo .word 12) = true ∧ (12 : Word) ∈ wordAddresses 0 4 ∧
      (failing svc).pins.dbgen = false := by decide
/-- LDM (3), and STM whose second word fails: STMIA R0, {R1, R2} at 0xFFFFFFFC. -/
theorem witness_aborted_multiple_more :
    let s : State := failing (at8000 0xD3 0xFFFFFFFC 0 0 0)
    s.spsr?.isSome = true ∧ s.mode4 .al s.mode false true false 0 (listRegs (2 : BitVec 15) ++ [15]) false =
        some ⟨.al, .svc, 0, [1, 15], 0xFFFFFFFC, none, false⟩ ∧
      s.multipleStore (.stm .al false true false 0 6) = some ⟨.al, .svc, 0, [1, 2], 0xFFFFFFFC, none, false⟩ ∧
      wordAddresses 0xFFFFFFFC 2 = [0xFFFFFFFC] ++ 0 :: [] ∧ s.writable false false .word 0xFFFFFFFC ∧
      s.writeAborts false false .word 0 ∧ s.readAborts false .word 0 ∧ s.readable false .word 0xFFFFFFFC ∧ s.between = [] := by
  unfold State.readAborts State.writeAborts State.readable State.writable State.unwatched
  decide
theorem witness_store_then_load :
    (based.reg 0).toNat % 4 = 0 ∧ based.writable false false .word (based.reg 0) ∧ based.lostWrite false (based.reg 0) = false ∧
      ok (exec (.strImm .al .offset true 0 3 0) based) (fun t => decide (t.pins.dbgen = false ∧
        t.alignFault .word (t.reg 0) = false ∧ t.mapped (alignTo .word (t.reg 0)) = true ∧
        t.readFails false .word (alignTo .word (t.reg 0)) = false)) = true := by
  unfold State.writable State.unwatched
  decide
theorem witness_thumb : tUser.thumb = true ∧ (8 ≤ (8 : Reg).toNat) ∧ (14 : Reg) ≠ 15 ∧ Cond.holds .eq tUser.cpsr = false ∧
    Cond.holds .ne tUser.cpsr = true := by decide
/-- A suffix whose prefix is noted and one without, sums within the address space and beyond each end, and a pair whose own
halfwords do not cross the top. -/
theorem witness_thumb_link :
    let back (lr pc : Word) : Int := (lr - (pc + 2)).toInt
    let noted : State := { tUser with prefixes := [tUser.ownPrefix] }
    tUser.thumb = true ∧ noted.ownPrefix ∈ noted.prefixes ∧ tUser.ownPrefix ∉ tUser.prefixes ∧ back 0x8004 0x8002 = 0 ∧
      (4294967296 : Int) ≤ (0xFFFFFFFE : Word).toNat + 2 + back 0 0xFFFFFFFE ∧
      (2 : Int) + 2 + back 0xFFFFF004 2 + 2 * 2045 < 0 ∧ tUser.pc.toNat + 2 < 4294967296 := by decide
theorem witness_cp15 : svc.privileged = true ∧ Cond.holds .al svc.cpsr = true ∧ (14 : Reg) ≠ 15 ∧ (1 : BitVec 3) ≠ 2 ∧
    user.privileged = false := by decide
/-- Both TCMs enabled and both disabled; the Configuration Control Register with every bit set. -/
theorem witness_cp15_write :
    ((0x1004 : Word).getLsbD 12 = true ∧ (0x1004 : Word).getLsbD 2 = true ∧ svc.pins.itcmSize ≠ 0 ∧ svc.pins.dtcmSize ≠ 0 ∧
      svc.cp15.bistI.enable = false ∧ svc.cp15.bistD.enable = false ∧ svc.itcm.buf = [] ∧ svc.dtcm.buf = []) ∧
    (0x00070006 : Word) &&& 0xFFF8FFF9 = 0 ∧ user.pins.itcmHung = false ∧ user.pins.dtcmHung = false ∧ user.ahb.buf = [] ∧
    (hung true false true user).pins.itcmHung = true ∧ ({ user.itcm with buf := [⟨0, 15, 0⟩] } : Tcm).buf ≠ [] ∧
    (0x1004 : Word).getLsbD 3 = false ∧ (0x100C : Word).getLsbD 3 = true := by decide
/-- An engine with a failure recorded, one that is enabled with its pause bit set, and one whose peek waits for the TCM. -/
theorem witness_bist_registers :
    ({ Bist.reset with failValid := true } : Bist).failValid = true ∧ Bist.reset.failValid = false ∧ Bist.reset.pause = false ∧
      ({ Bist.reset with enable := true, pause := true } : Bist).enable = true ∧ Bist.reset.enable = false ∧
      svc.pins.bistPresent .itcm = true ∧ svc.cp15.tcmOn .itcm = false ∧ tcmSizeLegal (svc.pins.tcmSize .itcm) = true ∧
      tcmBytes (svc.pins.tcmSize .itcm) ≠ 0 ∧ svc.pins.tcmHung .itcm = false ∧
      (hung true false false svc).pins.tcmHung .itcm = true ∧ Bist.reset.access = none ∧
      ({ Bist.reset with access := some (.peek 0) } : Bist).access ≠ none := by decide
/-- Both engines started on their whole TCM (N = 12 is 16KB). -/
theorem witness_bist_control :
    (at8000 0xD3 0x01850185 0 0 0).reg 0 &&& 0xFC18FC18 = 0 ∧
      (∀ side ∈ [Side.itcm, .dtcm], (svc.bist side).running = false ∧ (svc.bist side).cursor = none ∧
        (svc.tcm side).buf = [] ∧ svc.pins.bistPresent side = true ∧
        (svc.bist side).addrReg.toNat + 2 ^ (12 + 2) ≤ tcmBytes (svc.pins.tcmSize side)) ∧
      (0x0185 : BitVec 16).extractLsb' 5 11 = 12 := by decide
/-- An engine paused at the start of pass 2. -/
theorem witness_bist_paused : ({ Bist.reset with cursor := some ⟨.two, 0⟩ } : Bist).running = false ∧
    ({ Bist.reset with cursor := some ⟨.two, 0⟩ } : Bist).cursor ≠ none ∧ (0x0185 : BitVec 16).getLsbD 2 = true := by decide
theorem witness_coprocessor :
    externalCp 7 = true ∧ externalCp 14 = false ∧ externalCp 15 = false ∧ user.cpReplies 7 = [] ∧
      (answering [.absent, .wait] user).cpReplies 7 = .absent :: [.wait] ∧
      (answering [.wait] user).cpReplies 7 = .wait :: [] ∧ (answering [.waitForever] user).cpReplies 7 = .waitForever :: [] ∧
      (answering [.last 1] user).cpReplies 7 = [].map .go ++ .last 1 :: [] ∧
      (answering [.go 1, .last 2] user).cpReplies 7 = [1].map .go ++ .last 2 :: [] ∧
      (answering [.go 1, .wait] user).cpReplies 7 = [1].map .go ++ .wait :: [] ∧
      (answering [.go 1, .absent] user).cpReplies 7 = [1].map .go ++ .absent :: [] ∧
      (cpAddress (.offset true) (user.reg 15) 0).newBase = none ∧
      (cpAddress (.postIndexed true) (user.reg 15) 0).newBase ≠ none ∧ (0 : Reg) ≠ 15 := by decide
/-- A new instruction, and one kept waiting after one word. -/
theorem witness_coprocessor_offers :
    let i : Instr := .stc .al (.offset true) false 0 0 7 0
    let s := answering [.last 2] user
    s.offers 7 i [] (s.sendCp 7 (.instr (Code.word (encode i)) s.privileged)) ∧
      (s.setWaiting (some ⟨Code.word (encode i), [1]⟩)).offers 7 i [1] (s.setWaiting (some ⟨Code.word (encode i), [1]⟩)) := by
  unfold State.offers
  decide
theorem witness_coprocessor_transfer :
    (0 : Nat) + (List.replicate 15 (0 : Word)).length < 16 ∧ (1 : Nat) + (List.replicate 15 (0 : Word)).length = 16 ∧
      List.replicate 15 (0 : Word) ≠ [] ∧ based.between = [] := by decide
theorem witness_coprocessor_transfer_reads : ∀ a ∈ wordAddresses 0x2000 16, based.readable false .word a :=
  all_readable (by decide)
theorem witness_coprocessor_transfer_writes : ∀ a ∈ wordAddresses 0x2000 16, based.writable false false .word a :=
  all_writable (by decide)
theorem witness_claimless :
    (0x80000 : Word) &&& 0xFFF8FFF9 ≠ 0 ∧ (0x10 : Word) &&& 0xFC18FC18 ≠ 0 ∧ (0x1000 : Word).getLsbD 12 = true ∧
      ({ svc.pins with itcmSize := 0 } : Pins).itcmSize = 0 ∧
      ({ Bist.reset with enable := true } : Bist).enable = true ∧ (0 : Word).getLsbD 12 = false ∧
      ({ svc.cp15 with i := true } : Cp15).i = true ∧ ({ svc.itcm with buf := [⟨0, 15, 0⟩] } : Tcm).buf ≠ [] ∧
      (4 : Word).getLsbD 12 = false ∧ svc.cp15.i = false ∧ (4 : Word).getLsbD 2 = true ∧
      ({ svc.pins with dtcmSize := 0 } : Pins).dtcmSize = 0 ∧ ({ svc.cp15 with d := true } : Cp15).d = true := by decide

/-- MOV R0, #1 at the reset vector. -/
def first : State := State.reset.withFetchWord 32 0xE3A00001

/-- The fetch gives an instruction with this property. -/
def fetches (r : FetchResult) (k : Fetched → State → Bool) : Bool :=
  match r with
  | .ok x => k x.1 x.2
  | .error _ => false

theorem witness_step : first.quiet ∧ first.cp.waiting = none ∧ fetches (fetchNext first.atFetch) (fun f s => !f.err && !f.raw &&
    decide (breakpointAnswer f s = .quiet) && decide (decode f.code = .movImm .al false 0 0 0 1) &&
    !bankHazard (decode f.code) s) = true := by
  unfold State.quiet
  decide
/-- A CDP that a coprocessor keeps waiting, for a while and for ever. -/
theorem witness_step_waiting : (first.setWaiting (some ⟨0xEE000700, []⟩)).quiet ∧ cpNumber 0xEE000700 = 7 ∧
    decode (.arm 0xEE000700) = .cdp .al 0 0 0 7 0 0 ∧ ((answering [.wait] first).cpReplies 7).head? = some .wait ∧
    ((answering [.waitForever] first).cpReplies 7).head? = some .waitForever := by
  unfold State.quiet
  decide
/-- An instruction fetched with an error. -/
theorem witness_step_error : (failing State.reset).quiet ∧ State.reset.cp.waiting = none ∧ State.reset.dbg.watch = .none ∧
    fetches (fetchNext (failing State.reset).atFetch) (fun f _ => f.err) = true := by
  unfold State.quiet
  decide
/-- ADD R8, R8 in FIQ mode right after a user-bank transfer. -/
theorem witness_step_hazard :
    bankHazard (.addImm .al false 8 8 0 1) { at8000 0xD1 0 0 0 0 with userXfer := true } = true := by decide
theorem witness_fetch : first.fetch.nonseq = true ∧ first.cp15.i = false ∧ 67108863 < 2 ^ 26 ∧
    ({ svc with cp15 := { svc.cp15 with i := true } } : State).tcmProblem .itcm = none ∧ svc.itcm.buf = [] ∧
    svc.pins.itcmHung = false ∧ svc.pins.ahbHung = false ∧ (hung true false true svc).pins.itcmHung = true ∧
    (hung true false true svc).pins.ahbHung = true := by decide
theorem witness_interrupts :
    user.env = [] ∧ user.dbg.inDebug = false ∧ user.debugRequest = false ∧ user.dbg.watch = .none ∧ user.etmStall = false ∧
      Psr.f user.cpsr = false ∧ Psr.i user.cpsr = false ∧
      ({ user with pins := { user.pins with dbgen := true, edbgrq := true } } : State).debugRequest = true ∧
      user.dbg.monitor = false ∧ (!user.pins.nfiq && !(user.pins.fifofull && user.cp15.fm)) = false ∧
      (!({ user.pins with nirq := false } : Pins).nirq && !(user.pins.fifofull && user.cp15.im)) = true ∧
      ({ user with pins := { user.pins with fifofull := true } } : State).etmStall = true ∧ user.standby = false ∧
      user.cp.waiting = none ∧ (user.setWaiting (some ⟨0xEE000700, []⟩)).cp.waiting ≠ none := by decide
theorem witness_user : user.mode = .usr ∧ ok (exec (.addImm .al true 0 0 0 255) user) (fun t => decide (t.mode = .usr)) = true ∧
    ok (exec (.swi .al 0) user) (fun t => decide (t.mode = .svc)) = true := by decide
theorem witness_invariants : first.memoryInForm ∧ first.statusLegal ∧ first.streamLegal ∧ first.buffersFit := by
  unfold State.memoryInForm Tcm.inForm State.statusLegal State.streamLegal State.pcAligned State.buffersFit
  decide
theorem witness_bist_apart : first.bistApart := by
  intro side
  cases side <;> decide
theorem witness_step_next : ok (step first) (fun _ => true) = true := by decide
theorem witness_wellFormed : Instr.wellFormed (.tBCond .le 0xFF) = true := by decide

end Sys2Proof.Tests
end

section
/-! SUPPORT. Proofs: saturating arithmetic (R15, R200 to R203). -/

namespace Sys2Proof.Machine

/-! ## Saturation as clamping (R15) -/

/-- Within the 32-bit bounds an integer clamps to itself, beyond them to the nearer bound. -/
theorem clamp32_eq (x : Int) :
    clamp32 x = if x < -2147483648 then -2147483648 else if 2147483647 < x then 2147483647 else x := by
  unfold clamp32
  split
  · omega
  · split <;> omega

/-- The model's test for saturation is that of R15. -/
theorem signedDoesSat32_eq (x : Int) : signedDoesSat32 x = exceeds32 x := by
  norm_num [signedDoesSat32, exceeds32]

/-- The model's saturated word is the nearest integer that fits, as a word. -/
theorem signedSat32_eq (x : Int) : signedSat32 x = BitVec.ofInt 32 (clamp32 x) := by
  rw [clamp32_eq]
  unfold signedSat32
  norm_num only
  split
  · rfl
  · split <;> rfl

/-- A saturated word reads back as the integer it stands for. -/
theorem signedSat32_toInt (x : Int) : (signedSat32 x).toInt = clamp32 x := by
  have bounds : -2147483648 ≤ clamp32 x ∧ clamp32 x ≤ 2147483647 := by
    unfold clamp32
    omega
  rw [signedSat32_eq]
  exact BitVec.toInt_ofInt_eq_self (by decide) bounds.1 (Int.lt_add_one_of_le bounds.2)

/-! ## The instructions -/

/-- The guard of the multiply family lets through registers that are not R15 and do not clash (R188). -/
theorem mulGuard_pass {regs : List Reg} (k : Result) (h : ∀ r ∈ regs, r ≠ 15) : mulGuard regs false k = k := by
  have no15 : usesR15 regs = false := by
    simp only [usesR15, List.contains_eq_mem, decide_eq_false_iff_not]
    exact fun h15 => h 15 h15 rfl
  simp [mulGuard, no15]

/-- What saturating an exact result into Rd leaves: the clamped word, Q, and the next instruction. -/
theorem saturateTo_eq (rd : Reg) (x : Int) (q : Bool) (s : State) :
    saturateTo rd x q s =
      .next (s.wroteFlags rd (BitVec.ofInt 32 (clamp32 x)) (Psr.orQ s.cpsr (q || exceeds32 x))) := by
  have pc : ((s.setReg rd (signedSat32 x)).orQ (q || signedDoesSat32 x)).nextPc = s.nextPc := by simp
  unfold saturateTo State.advance
  rw [pc, signedSat32_eq, signedDoesSat32_eq]
  rfl

/-- The four saturating instructions where nothing stops them: `double` clamps twice Rn first, and Q takes note. -/
theorem saturating_pass (double sub : Bool) {c : Cond} {rn rd rm : Reg} {s : State} (hc : Cond.holds c s.cpsr = true)
    (hn : rn ≠ 15) (hd : rd ≠ 15) (hm : rm ≠ 15) :
    let twice : Int := 2 * (s.reg rn).toInt
    let y : Int := if double then clamp32 twice else (s.reg rn).toInt
    let x : Int := if sub then (s.reg rm).toInt - y else (s.reg rm).toInt + y
    saturating double sub c rn rd 0 rm s =
      .next (s.wroteFlags rd (BitVec.ofInt 32 (clamp32 x))
        (Psr.orQ s.cpsr ((double && exceeds32 twice) || exceeds32 x))) := by
  intro twice y x
  have regs : ∀ r ∈ [rn, rd, rm], r ≠ 15 := by simpa using ⟨hn, hd, hm⟩
  unfold saturating
  rw [onCond_pass _ hc, mulGuard_pass _ regs]
  simp only [signedSat32_toInt, signedDoesSat32_eq, saturateTo_eq]
  rfl

/-- Settles O9: QADD and QSUB clamp the sum or difference once; QDADD and QDSUB clamp twice Rn before it. -/
theorem saturatingResult : Obligations.SaturatingResult := by
  unfold Obligations.SaturatingResult
  intro c rn rd rm s hc hn hd hm a b d after
  exact ⟨saturating_pass false false hc hn hd hm, saturating_pass false true hc hn hd hm,
    saturating_pass true false hc hn hd hm, saturating_pass true true hc hn hd hm⟩

end Sys2Proof.Machine
end

section
/-! SUPPORT. Proofs: what a fetch can change, said once (R52, R64, R70, R72, R76). -/

namespace Sys2Proof.Machine

/-- A state that a fetch can leave: it differs in the fetch state, the AHB and its write buffer (as it was, or written out), the
chain latch, the output pins and the count of free values. -/
structure FetchOnly (s t : State) : Prop where
  core : t = { s with fetch := t.fetch, ahb := t.ahb, chain := t.chain, out := t.out, freeCtr := t.freeCtr }
  ahb : t.ahb = s.ahb ∨ t.ahb = s.ahb.drain

section
variable {s t u : State} {f : Fetched} {a : Word} {big itcmOn : Bool}

theorem FetchOnly.refl (s : State) : FetchOnly s s := ⟨rfl, .inl rfl⟩

theorem FetchOnly.trans (h : FetchOnly s t) (k : FetchOnly t u) : FetchOnly s u := by
  refine ⟨?_, ?_⟩
  · rw [k.core, h.core]
  · rcases h.ahb with ht | ht <;> rcases k.ahb with hu | hu <;> simp [ht, hu]

/-- The debug state is untouched. -/
theorem FetchOnly.dbg (h : FetchOnly s t) : t.dbg = s.dbg := by rw [h.core]

theorem FetchOnly.setIpb (s : State) (l : List IpbEntry) : FetchOnly s (s.setIpb l) := ⟨rfl, .inl rfl⟩

theorem FetchOnly.setPipe (s : State) (l : List Fetched) : FetchOnly s (s.setPipe l) := ⟨rfl, .inl rfl⟩

theorem FetchOnly.drainAhb (s : State) : FetchOnly s s.drainAhb := ⟨rfl, .inr rfl⟩

theorem FetchOnly.takeBool (s : State) : FetchOnly s s.takeBool.2 := ⟨rfl, .inl rfl⟩

theorem FetchOnly.noteCycle (s : State) (x : Seen) : FetchOnly s (s.noteCycle x) := ⟨rfl, .inl rfl⟩

/-! ## One read -/

theorem fetchItcm_frame (h : fetchItcm big a s = .ok (f, t)) : FetchOnly s t := by
  unfold fetchItcm at h
  split at h
  · cases h
  · split at h
    · cases h
    · simp only at h
      split at h <;> obtain ⟨-, rfl⟩ := Prod.mk.inj (Except.ok.inj h)
      · exact .takeBool s
      · exact .refl s

theorem fetchAhb_frame (h : fetchAhb big a s = .ok (f, t)) : FetchOnly s t := by
  unfold fetchAhb at h
  simp only at h
  split at h
  · obtain ⟨-, rfl⟩ := Prod.mk.inj (Except.ok.inj h)
    exact .setIpb s _
  · split at h
    · cases h
    · obtain ⟨-, rfl⟩ := Prod.mk.inj (Except.ok.inj h)
      exact (FetchOnly.drainAhb s).trans (.setIpb _ _)

theorem fetchAt_frame (h : fetchAt a s = .ok (f, t)) : FetchOnly s t := by
  unfold fetchAt at h
  split at h
  · cases h
  next g u read =>
    obtain ⟨-, rfl⟩ := Prod.mk.inj (Except.ok.inj h)
    refine FetchOnly.trans ?_ (.noteCycle u _)
    split at read
    · exact fetchItcm_frame read
    · exact fetchAhb_frame read

theorem readNow_frame (h : readNow itcmOn big a s = .ok (f, t)) : FetchOnly s t := by
  unfold readNow at h
  split at h
  · exact fetchItcm_frame h
  · split at h
    · cases h
    · obtain ⟨-, rfl⟩ := Prod.mk.inj (Except.ok.inj h)
      exact .drainAhb s

/-! ## The stream -/

theorem fetchAhead_frame (s : State) : FetchOnly s (fetchAhead s) := by
  unfold fetchAhead
  split
  · exact .refl s
  · simp only
    split
    · exact .refl s
    · split
      · exact .refl s
      next f t fetched => exact (fetchAt_frame fetched).trans (.setPipe t _)

theorem heldOrNew_frame (held : Fetched) (s : State) : FetchOnly s (heldOrNew held s).2 := by
  unfold heldOrNew
  split
  · exact .refl s
  next f t read =>
    split
    · exact .refl s
    · split
      · exact ⟨rfl, .inl rfl⟩
      · exact (readNow_frame read).trans (.takeBool t)

theorem fetchNonseq_frame (h : fetchNonseq s = .ok (f, t)) : FetchOnly s t := by
  unfold fetchNonseq at h
  refine FetchOnly.trans ?_ (fetchAt_frame h)
  exact ⟨rfl, .inl rfl⟩

theorem fetchSeq_frame (h : fetchSeq s = .ok (f, t)) : FetchOnly s t := by
  unfold fetchSeq at h
  simp only at h
  split at h
  · cases h
  · split at h
    · obtain rfl := congrArg Prod.snd (Except.ok.inj h)
      exact (FetchOnly.setPipe s _).trans (heldOrNew_frame _ _)
    · split at h
      · cases h
      · split at h
        · cases h
        next g u fetched =>
          obtain rfl := congrArg Prod.snd (Except.ok.inj h)
          exact (fetchAt_frame fetched).trans ((FetchOnly.setPipe u _).trans (heldOrNew_frame _ _))

/-- A fetch, with the reading ahead that follows it. -/
theorem fetchNext_frame (h : fetchNext s = .ok (f, t)) : FetchOnly s t := by
  unfold fetchNext at h
  split at h
  · cases h
  next g u fetched =>
    obtain ⟨-, rfl⟩ := Prod.mk.inj (Except.ok.inj h)
    have first : FetchOnly s u := by
      split at fetched
      · exact fetchNonseq_frame fetched
      · exact fetchSeq_frame fetched
    exact first.trans ((FetchOnly.setPipe u _).trans ((fetchAhead_frame _).trans (fetchAhead_frame _)))

end

end Sys2Proof.Machine
end

section
/-! SUPPORT. Proofs: a quiet step runs one instruction (R11, R100, R148, R317). -/

namespace Sys2Proof.Machine

variable {s u : State} {f : Fetched} {i : Instr}

/-! ## The start of a quiet step -/

/-- The ETM registers take their copy of the state before the step, where ETMEN lets them (R340, R366). -/
theorem State.begun_etm (s : State) :
    s.begun.etm = if s.pins.etmen then
        { bigend := s.cp15.b, hivecs := s.cp15.v, dbgack := s.pins.dbgen && s.dbg.inDebug, pins := s.out
          procId := s.cp15.procId, procIdWr := s.cp15.procIdWr }
      else s.etm := by
  have clocked : s.begun.etm = s.clockEtm.etm := by
    unfold State.begun State.settleAhb
    split
    · rfl
    · simp [State.leaveHandlers, State.endPulses]
  rw [clocked]
  unfold State.clockEtm
  split <;> rfl

/-- What is due of the AHB write buffer changes no error input. -/
theorem State.begun_ahbErr (s : State) : s.begun.ahb.err = s.ahb.err := by
  have pulses : s.clockEtm.endPulses.leaveHandlers.ahb = s.ahb := by
    simp only [State.leaveHandlers, State.endPulses, State.clockEtm]
    split <;> rfl
  unfold State.begun State.settleAhb State.drainAhbOne
  split
  · rw [pulses]
  · split <;> simp [pulses]

/-- The handlers that are still served are those of the current mode (R342). -/
theorem State.begun_served (s : State) :
    s.begun.fiqServed = (s.fiqServed && decide (s.mode = .fiq)) ∧
      s.begun.irqServed = (s.irqServed && decide (s.mode = .irq)) := by
  have marks : s.begun.fiqServed = s.clockEtm.endPulses.leaveHandlers.fiqServed ∧
      s.begun.irqServed = s.clockEtm.endPulses.leaveHandlers.irqServed := by
    unfold State.begun State.settleAhb
    split <;> simp
  rw [marks.1, marks.2]
  unfold State.leaveHandlers State.endPulses State.clockEtm
  split <;> exact ⟨rfl, rfl⟩

/-- The clock has no effect on whether the ETM stalls the core. -/
theorem State.begun_etmStall (s : State) : s.begun.etmStall = s.etmStall := by
  have mode : s.begun.mode = s.mode := by rw [s.begun_core]; rfl
  have fiq : (s.begun.fiqServed && decide (s.begun.mode = .fiq)) = (s.fiqServed && decide (s.mode = .fiq)) := by
    rw [s.begun_served.1, mode, Bool.and_assoc, Bool.and_self]
  have irq : (s.begun.irqServed && decide (s.begun.mode = .irq)) = (s.irqServed && decide (s.mode = .irq)) := by
    rw [s.begun_served.2, mode, Bool.and_assoc, Bool.and_self]
  unfold State.etmStall
  rw [fiq, irq, s.begun_core]

/-- The clock and the end of standby move no register of the core. -/
theorem State.atFetch_core (s : State) :
    s.atFetch = { s with
      etm := s.begun.etm, out := s.begun.out, cp15 := { s.cp15 with procIdWr := false }
      fiqServed := s.begun.fiqServed, irqServed := s.begun.irqServed, ahb := s.begun.ahb, standby := false } :=
  congrArg (fun t : State => { t with standby := false }) s.begun_core

/-- Nor a register of the system, but for the pulse of R135, standby, the ETM registers and the marks of the handlers. -/
theorem State.atFetch_system (s : State) :
    SameSystem s { s.atFetch with
      standby := s.standby, cp15 := { s.atFetch.cp15 with procIdWr := s.cp15.procIdWr }, etm := s.etm
      fiqServed := s.fiqServed, irqServed := s.irqServed } := by
  rw [s.atFetch_core]
  constructor
  case ahbErr => exact s.begun_ahbErr
  all_goals rfl

/-- The coprocessors are as they were. -/
@[simp] theorem State.atFetch_cp (s : State) : s.atFetch.cp = s.cp := by rw [s.atFetch_core]

/-- What the other agents are to do is as it was. -/
@[simp] theorem State.atFetch_env (s : State) : s.atFetch.env = s.env := by rw [s.atFetch_core]

/-- The debug state is as it was. -/
@[simp] theorem State.atFetch_dbg (s : State) : s.atFetch.dbg = s.dbg := by rw [s.atFetch_core]

/-- The handshake cycles to come are as they were. -/
@[simp] theorem State.atFetch_cpReplies (s : State) (n : Reg) : s.atFetch.cpReplies n = s.cpReplies n := by
  simp [State.cpReplies]

/-- Where nothing else can happen, a step is the next instruction, or the one that a coprocessor keeps waiting (R11). -/
theorem step_quiet (h : s.quiet) : step s = nextInstruction s.atFetch := by
  obtain ⟨env, running, request, stall, fiq, irq, standby⟩ := h
  have core := s.begun_core
  have begins : beginStep s = .ok s.begun := by
    have noEvents : s.begun.env = [] := by rw [core]; exact env
    simp [beginStep, noEvents]
  have running' : s.begun.dbg.inDebug = false := by rw [core]; exact running
  have request' : s.begun.debugRequest = false := by rw [core]; exact request
  have awake : (s.begun.standby && !s.begun.wakes) = false := by
    have : s.begun.standby = s.standby ∧ s.begun.wakes = s.wakes := by rw [core]; exact ⟨rfl, rfl⟩
    simpa [this.1, this.2] using standby
  have stall' : s.atFetch.etmStall = false := s.begun_etmStall.trans stall
  have fiq' : s.atFetch.takesFiq = false := by rw [s.atFetch_core]; exact fiq
  have irq' : s.atFetch.takesIrq = false := by rw [s.atFetch_core]; exact irq
  calc step s = coreStep s.begun := by simp [step, begins]
    _ = awakeStep s.atFetch := by simp [coreStep, running', request', awake, State.atFetch]
    _ = nextInstruction s.atFetch := by simp [awakeStep, stall', fiq', irq']

/-! ## One instruction -/

/-- With no instruction waiting, the core fetches one. -/
theorem nextInstruction_fetched (idle : s.cp.waiting = none) (fetched : fetchNext s = .ok (f, u)) :
    nextInstruction s = runFetched f (u.inExecute f) := by
  simp [nextInstruction, idle, fetched]

/-- An instruction that waits is the next one, unless it waits for ever (R148, R357). -/
theorem nextInstruction_waiting {p : CpWait} (waits : s.cp.waiting = some p) :
    nextInstruction s =
      if s.busyForever p then .fault .accessNeverCompletes else runInstr (decode (.arm p.instr)) s := by
  simp [nextInstruction, waits]

/-- What was fetched without an error, a mark or an unwritten byte is decoded and run. -/
theorem runFetched_decoded (good : f.err = false) (unmarked : breakpointAnswer f s = .quiet) (written : f.raw = false) :
    runFetched f s = runInstr (decode f.code) s := by
  simp [runFetched, good, unmarked, written]

/-- An instruction that accesses a banked register right after a user-bank transfer stops (U-G11). -/
theorem runInstr_hazard (h : bankHazard i u = true) : runInstr i u = .refused .bankedAfterUserTransfer := by
  simp [runInstr, h]

/-- Any other runs; where it completes or goes on waiting, its pins show it (R146, R148, R364). -/
theorem runInstr_safe (h : bankHazard i u = false) :
    runInstr i u =
      match exec i { u with userXfer := false } with
      | .next t => .next (if t.cp.waiting.isSome then { t.executed i u with userXfer := u.userXfer }
          else endInstruction (t.executed i u))
      | r => r := by
  unfold runInstr
  rw [h]
  cases exec i { u with userXfer := false } <;> rfl

/-- The link register of the mode entered (R312, R313). -/
@[simp] theorem State.raise_regs (s : State) (k : Exc) :
    (s.raise k).regs = s.regs.set (physIndex k.mode lrReg) (s.link k) := by
  simp [State.raise, State.takeException]

/-- The saved status of the mode entered (R312). -/
@[simp] theorem State.raise_spsr (s : State) (k : Exc) : (s.raise k).spsr = (s.setSpsr k.mode s.cpsr).spsr := by
  cases k <;> rfl

/-- The status register after entry (R312). -/
@[simp] theorem State.raise_cpsr (s : State) (k : Exc) : (s.raise k).cpsr = k.newCpsr s.cpsr := rfl

/-- The vector (R309, R310). -/
@[simp] theorem State.raise_pc (s : State) (k : Exc) : (s.raise k).pc = s.vectorBase + k.offset := by
  simp [State.raise, State.takeException, State.vectorBase]

/-- Taking an exception leaves the debug state alone. -/
@[simp] theorem State.raise_dbg (s : State) (k : Exc) : (s.raise k).dbg = s.dbg := by
  simp [State.raise, State.takeException]

/-- An exception entry while no watched access is pending (R324): an instruction that waits is abandoned, and the entry
follows. -/
theorem enter_unwatched (k : Exc) (h : u.dbg.watch = .none) :
    u.enter k = ({ u.abandonCp with
      userXfer := false, fiqServed := u.fiqServed || decide (k = .fiq), irqServed := u.irqServed || decide (k = .irq) } :
        State).raise k := by
  simp [State.enter, endEntry, h]

/-! ## The obligation -/

/-- The step of a quiet state whose next instruction is given: fetched, or kept waiting by a coprocessor. -/
theorem step_runs (hq : s.quiet)
    (h : (∃ f s', s.cp.waiting = none ∧ fetchNext s.atFetch = .ok (f, s') ∧ f.err = false ∧
          breakpointAnswer f s' = .quiet ∧ f.raw = false ∧ decode f.code = i ∧ u = s'.inExecute f) ∨
        (∃ p, s.cp.waiting = some p ∧ (s.cpReplies (cpNumber p.instr)).head? ≠ some .waitForever ∧
          decode (.arm p.instr) = i ∧ u = s.atFetch)) :
    step s = runInstr i u := by
  rw [step_quiet hq]
  rcases h with ⟨f, s', idle, fetched, good, unmarked, written, rfl, rfl⟩ | ⟨p, waits, notForever, rfl, rfl⟩
  · have unmarked' : breakpointAnswer f (s'.inExecute f) = .quiet := unmarked
    rw [nextInstruction_fetched (s.atFetch_cp ▸ idle) fetched, runFetched_decoded good unmarked' written]
  · have going : s.atFetch.busyForever p = false := by simp [State.busyForever, notForever]
    rw [nextInstruction_waiting (s.atFetch_cp ▸ waits), going]
    rfl

/-- A coprocessor that busy-waits for ever, with nothing more to come, hangs the core (R357). -/
theorem step_busyForever {p : CpWait} (hq : s.quiet) (waits : s.cp.waiting = some p)
    (forever : (s.cpReplies (cpNumber p.instr)).head? = some .waitForever) : step s = .fault .accessNeverCompletes := by
  have noEvents : s.env = [] := hq.1
  have hangs : s.atFetch.busyForever p = true := by simp [State.busyForever, noEvents, forever]
  rw [step_quiet hq, nextInstruction_waiting (s.atFetch_cp ▸ waits), hangs]
  rfl

/-- A fetch answered with an error takes the Prefetch Abort (R312, R313, R317). -/
theorem step_prefetchAbort {s' : State} (hq : s.quiet) (idle : s.cp.waiting = none) (unwatched : s.dbg.watch = .none)
    (fetched : fetchNext s.atFetch = .ok (f, s')) (failed : f.err = true) :
    ∃ t, step s = .next t ∧ t.regs = s'.regs.set (physIndex .abt 14) (s'.pc + 4) ∧ t.spsr = s'.spsr.set 3 s'.cpsr ∧
      t.cpsr = Exc.newCpsr .prefetchAbort s'.cpsr ∧ t.pc = (if s'.cp15.v then 0xFFFF000C else 0xC) := by
  have watch : (s'.inExecute f).dbg.watch = .none := by
    have same : (s'.inExecute f).dbg = s.dbg := (fetchNext_frame fetched).dbg.trans s.atFetch_dbg
    rw [same, unwatched]
  refine ⟨(s'.inExecute f).enter .prefetchAbort, ?_, ?_⟩
  · rw [step_quiet hq, nextInstruction_fetched (s.atFetch_cp ▸ idle) fetched]
    simp [runFetched, failed]
  · rw [enter_unwatched _ watch]
    refine ⟨?_, ?_, ?_, ?_⟩
    · simp [State.link, State.inExecute, Exc.mode]
    · simp [State.setSpsr, State.inExecute, Exc.mode, Mode.spsrIndex]
    · simp [State.inExecute]
    · cases high : s'.cp15.v <;> simp [State.vectorBase, State.inExecute, Exc.offset, high]

/-- Settles O48: each part is the rule above for its case. -/
theorem stepRunsDecoded : Obligations.StepRunsDecoded := by
  unfold Obligations.StepRunsDecoded
  refine ⟨fun i s u hq h => ⟨fun hazard => ?_, fun safe => ?_⟩, fun p s => step_busyForever,
    fun f s s' => step_prefetchAbort, fun s => ?_⟩
  · rw [step_runs hq h, runInstr_hazard hazard]
  · rw [step_runs hq h, runInstr_safe safe]
    rfl
  · have core := s.atFetch_core
    exact ⟨by rw [core], by rw [core], by rw [core], by rw [core], by rw [core], s.begun_memory, s.atFetch_system,
      s.begun_etm⟩

end Sys2Proof.Machine
end

section
/-! SUPPORT. Proofs: what an operation keeps of the memories and the buffers, said once (R50, R66, R70, R72, R76): the canonical
form of the three memories, and the sizes of the write buffers, the prefetch buffer and the pipeline. -/

namespace Sys2Proof.Machine

/-! ## One TCM -/

/-- A TCM stays in canonical form, and its write buffer within its two entries. -/
structure TcmKept (t u : Tcm) : Prop where
  form : t.inForm → u.inForm
  fit : t.buf.length ≤ 2 → u.buf.length ≤ 2

theorem TcmKept.refl (t : Tcm) : TcmKept t t := ⟨id, id⟩

theorem TcmKept.trans {t u v : Tcm} (h : TcmKept t u) (k : TcmKept u v) : TcmKept t v :=
  ⟨k.form ∘ h.form, k.fit ∘ h.fit⟩

theorem TcmKept.commit (t : Tcm) (w : Nat) (lanes : BitVec 4) (v : Word) : TcmKept t (t.commit w lanes v) :=
  ⟨Tcm.commit_inForm w lanes v, id⟩

theorem TcmKept.drain (t : Tcm) : TcmKept t t.drain := ⟨Tcm.drain_inForm, fun _ => by simp⟩

theorem TcmKept.waited (t : Tcm) (order : Bool) : TcmKept t (t.waited order) := by
  unfold Tcm.waited
  split
  · exact .drain t
  · exact .refl t

theorem TcmKept.setHold (t : Tcm) (new old : Bool) : TcmKept t (t.setHold new old) := ⟨id, id⟩

/-- Draining one entry makes room for one. -/
theorem Tcm.drainOne_length (t : Tcm) : t.drainOne.buf.length = t.buf.length - 1 := by
  unfold Tcm.drainOne
  split <;> simp [*]

theorem TcmKept.drainOne (t : Tcm) : TcmKept t t.drainOne :=
  ⟨Tcm.drainOne_inForm, fun h => by rw [Tcm.drainOne_length]; omega⟩

/-- A third write forces the oldest entry out (R66). -/
theorem TcmKept.push (t : Tcm) (e : TcmEntry) : TcmKept t (t.push e) := by
  refine ⟨Tcm.push_inForm e, fun h => ?_⟩
  unfold Tcm.push
  simp only [List.length_append, List.length_singleton]
  split
  · rw [Tcm.drainOne_length]
    omega
  · omega

/-- A byte written past the buffer, by DMA. -/
theorem TcmKept.writeByte (t : Tcm) (offset : Nat) (b : Byte) :
    TcmKept t { t with mem := t.mem.write offset b, init := insertNat t.init offset } :=
  ⟨fun h => ⟨Memory.write_wf _ _ h.1, insertNat_rising _ h.2⟩, id⟩

theorem TcmKept.afterReset (t : Tcm) (k : Nat) : TcmKept t (t.afterReset k) := by
  refine ⟨fun h => ?_, fun _ => by simp [Tcm.afterReset]⟩
  unfold Tcm.afterReset
  split
  · exact Tcm.drain_inForm h
  · exact h

/-! ## The AHB -/

/-- The AHB write buffer holds at most four addresses and eight words (R70), and no address without a word. -/
structure Ahb.BufferFits (h : Ahb) : Prop where
  entries : h.buf.length ≤ 4
  words : h.bufWords ≤ 8
  nonempty : ∀ e ∈ h.buf, e.data ≠ []

/-- The AHB stays in canonical form, and its write buffer within its sizes. -/
structure AhbKept (h g : Ahb) : Prop where
  form : Memory.wf h.mem → Memory.wf g.mem
  fit : h.BufferFits → g.BufferFits

theorem AhbKept.refl (h : Ahb) : AhbKept h h := ⟨id, id⟩

theorem AhbKept.trans {h g f : Ahb} (hg : AhbKept h g) (gf : AhbKept g f) : AhbKept h f :=
  ⟨gf.form ∘ hg.form, gf.fit ∘ hg.fit⟩

/-- An empty buffer fits. -/
theorem Ahb.bufferFits_nil {h : Ahb} (empty : h.buf = []) : h.BufferFits :=
  ⟨by simp [empty], by simp [Ahb.bufWords, empty], by simp [empty]⟩

/-- Whether a buffer fits is a matter of its entries alone. -/
theorem Ahb.BufferFits.of_buf {h g : Ahb} (fits : h.BufferFits) (same : g.buf = h.buf) : g.BufferFits :=
  ⟨same ▸ fits.entries, by unfold Ahb.bufWords; rw [same]; exact fits.words, same ▸ fits.nonempty⟩

/-- A write transfer past the buffer. -/
theorem AhbKept.writeWord (h : Ahb) (user : Bool) (a : Word) (lanes : BitVec 4) (v : Word) :
    AhbKept h (h.writeWord user a lanes v) :=
  ⟨Ahb.writeWord_wf user a lanes v, fun fits => fits.of_buf (Ahb.writeWord_buf h user a lanes v)⟩

theorem AhbKept.drain (h : Ahb) : AhbKept h h.drain := ⟨Ahb.drain_wf, fun _ => Ahb.bufferFits_nil (Ahb.drain_buf h)⟩

theorem AhbKept.flush (h : Ahb) : AhbKept h h.flush := ⟨id, fun fits => fits.of_buf (Ahb.flush_buf h)⟩

/-- Another master's byte. -/
theorem AhbKept.writeByte (h : Ahb) (a : Nat) (b : Byte) : AhbKept h { h with mem := h.mem.write a b } :=
  ⟨Memory.write_wf a b, fun fits => fits.of_buf rfl⟩

theorem AhbKept.afterReset (h : Ahb) (k : Nat) : AhbKept h (h.afterReset k) := by
  refine ⟨fun form => ?_, fun _ => Ahb.bufferFits_nil rfl⟩
  unfold Ahb.afterReset
  split
  · exact Ahb.drain_wf form
  · exact form

/-- Writing the oldest word leaves a buffer that fits, with a word less. -/
theorem Ahb.drainOne_fits {h : Ahb} (fits : h.BufferFits) :
    h.drainOne.BufferFits ∧ h.drainOne.bufWords = h.bufWords - 1 := by
  obtain ⟨entries, words, nonempty⟩ := fits
  unfold Ahb.bufWords at *
  unfold Ahb.drainOne
  split
  next empty => exact ⟨Ahb.bufferFits_nil empty, by simp [empty]⟩
  next e es full =>
    rw [full] at entries words nonempty ⊢
    have rest : ∀ x ∈ es, x.data ≠ [] := fun x hx => nonempty x (by simp [hx])
    simp only [List.length_cons, List.map_cons, List.sum_cons] at entries words ⊢
    split
    next none => exact absurd none (nonempty e (by simp))
    next one =>
      simp only [one, List.length_singleton, Ahb.writeWord_buf] at words ⊢
      exact ⟨⟨by simp; omega, by simp [Ahb.bufWords]; omega, by simpa using rest⟩, by omega⟩
    next v vs more data =>
      have vsne : vs ≠ [] := fun none => more none
      simp only [data, List.length_cons, Ahb.writeWord_buf, List.map_cons, List.sum_cons] at words ⊢
      exact ⟨⟨by simp; omega, by simp [Ahb.bufWords]; omega, by simpa using ⟨vsne, rest⟩⟩, by omega⟩

/-- A buffer that fits and holds no word has room. -/
theorem Ahb.hasRoom_of_empty {h : Ahb} (fits : h.BufferFits) (none : h.bufWords = 0) (new : Bool) :
    h.hasRoom new = true := by
  have empty : h.buf = [] := List.eq_nil_iff_forall_not_mem.mpr fun e he => by
    have len : e.data.length = 0 :=
      List.sum_eq_zero_iff.mp none _ (List.mem_map.mpr ⟨e, he, rfl⟩)
    exact fits.nonempty e he (List.length_eq_zero_iff.mp len)
  simp [Ahb.hasRoom, none, empty]

/-- Waiting for room keeps a buffer that fits, and finds the room: each round writes a word. -/
theorem Ahb.makeRoom_fits (new : Bool) (n : Nat) {h : Ahb} (fits : h.BufferFits) :
    (Ahb.makeRoom new n h).BufferFits ∧ (h.bufWords < n → (Ahb.makeRoom new n h).hasRoom new = true) := by
  induction n generalizing h with
  | zero => exact ⟨fits, fun few => absurd few (by omega)⟩
  | succ n ih =>
    unfold Ahb.makeRoom
    split
    next room => exact ⟨fits, fun _ => room⟩
    next full =>
      obtain ⟨drained, fewer⟩ := Ahb.drainOne_fits fits
      refine ⟨(ih drained).1, fun few => (ih drained).2 ?_⟩
      have some : h.bufWords ≠ 0 := fun none => full (Ahb.hasRoom_of_empty fits none new)
      omega

/-- A store of one word with an address entry of its own (R70). -/
theorem AhbKept.push (h : Ahb) {e : AhbEntry} (one : e.data.length = 1) : AhbKept h (h.push e) := by
  refine ⟨Ahb.push_wf e, fun fits => ?_⟩
  obtain ⟨⟨-, -, nonempty⟩, room⟩ := Ahb.makeRoom_fits true 9 fits
  have room := room (by have := fits.words; omega)
  simp only [Ahb.hasRoom, Bool.and_eq_true, Bool.not_true, Bool.false_or, decide_eq_true_eq] at room
  unfold Ahb.bufWords at room
  have some : e.data ≠ [] := fun none => by simp [none] at one
  refine ⟨?_, ?_, ?_⟩
  · simp [Ahb.push]; omega
  · simp [Ahb.push, Ahb.bufWords, one]; omega
  · simpa [Ahb.push, or_imp, forall_and] using ⟨nonempty, some⟩

/-- A word added to the last entry changes no number of entries, and leaves none without a word. -/
theorem appendLast_fits (l : List AhbEntry) (v : Word) (nonempty : ∀ e ∈ l, e.data ≠ []) :
    (appendLast l v).length = l.length ∧
      ((appendLast l v).map (·.data.length)).sum ≤ (l.map (·.data.length)).sum + 1 ∧
      ∀ e ∈ appendLast l v, e.data ≠ [] := by
  fun_induction appendLast l v with
  | case1 => simp
  | case2 e v => simp
  | case3 e es v more ih =>
    obtain ⟨len, words, rest⟩ := ih fun x hx => nonempty x (by simp [hx])
    have first := nonempty e (by simp)
    simp only [List.length_cons, List.map_cons, List.sum_cons, List.mem_cons, forall_eq_or_imp]
    exact ⟨by omega, by omega, first, rest⟩

/-- A further word of a store multiple (R70): into the last entry, or with one of its own. -/
theorem AhbKept.pushSeq (h : Ahb) {e : AhbEntry} (one : e.data.length = 1) : AhbKept h (h.pushSeq e) := by
  refine ⟨Ahb.pushSeq_wf e, fun fits => ?_⟩
  unfold Ahb.pushSeq
  simp only
  split
  · split
    next v data =>
      obtain ⟨⟨entries, -, nonempty⟩, room⟩ := Ahb.makeRoom_fits false 9 fits
      have room := room (by have := fits.words; omega)
      simp only [Ahb.hasRoom, Bool.and_eq_true, decide_eq_true_eq] at room
      obtain ⟨len, words, nonempty⟩ := appendLast_fits _ v nonempty
      unfold Ahb.bufWords at room
      exact ⟨by simp only; omega, by simp only [Ahb.bufWords]; omega, nonempty⟩
    · exact (AhbKept.push h one).fit fits
  · exact (AhbKept.push h one).fit fits

theorem AhbKept.drainOne (h : Ahb) : AhbKept h h.drainOne := ⟨Ahb.drainOne_wf, fun fits => (Ahb.drainOne_fits fits).1⟩

/-! ## The whole state -/

/-- The prefetch buffer holds at most four words (R72), the pipeline at most three instructions (R76). -/
structure FetchState.Fits (f : FetchState) : Prop where
  ipb : f.ipb.length ≤ 4
  pipe : f.pipe.length ≤ 3

/-- An operation keeps the form of the three memories and the sizes of the buffers. -/
structure StoresKept (s t : State) : Prop where
  itcm : TcmKept s.itcm t.itcm
  dtcm : TcmKept s.dtcm t.dtcm
  ahb : AhbKept s.ahb t.ahb
  fetch : s.fetch.Fits → t.fetch.Fits

theorem StoresKept.memoryInForm {s t : State} (h : StoresKept s t) (hs : s.memoryInForm) : t.memoryInForm := by
  obtain ⟨itcm, dtcm, ahb⟩ := hs
  exact ⟨h.itcm.form itcm, h.dtcm.form dtcm, h.ahb.form ahb⟩

theorem StoresKept.buffersFit {s t : State} (h : StoresKept s t) (hs : s.buffersFit) : t.buffersFit := by
  obtain ⟨itcm, dtcm, entries, words, nonempty, ipb, pipe⟩ := hs
  obtain ⟨entries', words', nonempty'⟩ := h.ahb.fit ⟨entries, words, nonempty⟩
  obtain ⟨ipb', pipe'⟩ := h.fetch ⟨ipb, pipe⟩
  exact ⟨h.itcm.fit itcm, h.dtcm.fit dtcm, entries', words', nonempty', ipb', pipe'⟩

section
variable {s t u : State}

theorem StoresKept.refl (s : State) : StoresKept s s := ⟨.refl _, .refl _, .refl _, id⟩

theorem StoresKept.trans (h : StoresKept s t) (k : StoresKept t u) : StoresKept s u :=
  ⟨h.itcm.trans k.itcm, h.dtcm.trans k.dtcm, h.ahb.trans k.ahb, k.fetch ∘ h.fetch⟩

/-- Two states with the same memories and buffers. -/
def SameStores (s t : State) : Prop :=
  t.itcm = s.itcm ∧ t.dtcm = s.dtcm ∧ t.ahb = s.ahb ∧ t.fetch.ipb = s.fetch.ipb ∧ t.fetch.pipe = s.fetch.pipe

@[simp] theorem sameStores_iff : SameStores s t ↔
    t.itcm = s.itcm ∧ t.dtcm = s.dtcm ∧ t.ahb = s.ahb ∧ t.fetch.ipb = s.fetch.ipb ∧ t.fetch.pipe = s.fetch.pipe := .rfl

/-- A change that touches no memory and no buffer. -/
theorem StoresKept.of_same (h : SameStores s t) : StoresKept s t := by
  obtain ⟨itcm, dtcm, ahb, ipb, pipe⟩ := h
  exact ⟨itcm ▸ .refl _, dtcm ▸ .refl _, ahb ▸ .refl _, fun fits => ⟨ipb ▸ fits.ipb, pipe ▸ fits.pipe⟩⟩

/-- A further change that touches no memory and no buffer. -/
theorem StoresKept.same (h : StoresKept s t) (k : SameStores t u) : StoresKept s u := h.trans (.of_same k)

/-- One TCM is replaced. -/
theorem StoresKept.setTcm (s : State) {side : Side} {t : Tcm} (h : TcmKept (s.tcm side) t) : StoresKept s (s.setTcm side t) := by
  cases side
  · exact ⟨h, .refl _, .refl _, id⟩
  · exact ⟨.refl _, h, .refl _, id⟩

/-- The AHB is replaced. -/
theorem StoresKept.setAhb (s : State) {h : Ahb} (kept : AhbKept s.ahb h) : StoresKept s { s with ahb := h } :=
  ⟨.refl _, .refl _, kept, id⟩

/-- The prefetch buffer is replaced by one that fits. -/
theorem StoresKept.setIpb (s : State) {l : List IpbEntry} (len : s.fetch.Fits → l.length ≤ 4) : StoresKept s (s.setIpb l) :=
  ⟨.refl _, .refl _, .refl _, fun fits => ⟨len fits, fits.pipe⟩⟩

/-- The pipeline is replaced by one that fits. -/
theorem StoresKept.setPipe (s : State) {l : List Fetched} (len : s.fetch.Fits → l.length ≤ 3) : StoresKept s (s.setPipe l) :=
  ⟨.refl _, .refl _, .refl _, fun fits => ⟨fits.ipb, len fits⟩⟩

end

/-! ## What the other agents do -/

theorem StoresKept.drainAhb (s : State) : StoresKept s s.drainAhb := .setAhb s (.drain _)

theorem StoresKept.drainTcm (s : State) (side : Side) : StoresKept s (s.drainTcm side) := .setTcm s (.drain _)

theorem StoresKept.drainAll (s : State) : StoresKept s s.drainAll :=
  (StoresKept.drainAhb s).trans ((StoresKept.drainTcm _ .itcm).trans (.drainTcm _ .dtcm))

theorem StoresKept.drainAhbOne (s : State) : StoresKept s s.drainAhbOne := by
  unfold State.drainAhbOne
  split
  · exact .refl s
  · exact .setAhb s (.drainOne _)

theorem StoresKept.drainTcmOne (s : State) (side : Side) : StoresKept s (s.drainTcmOne side) := by
  unfold State.drainTcmOne
  split
  · exact .refl s
  · exact .setTcm s (.drainOne _)

theorem StoresKept.dmaWrite (side : Side) (offset : Nat) (b : Byte) (s : State) : StoresKept s (dmaWrite side offset b s) := by
  unfold Machine.dmaWrite
  split
  · exact .setTcm s (.writeByte _ offset b)
  · exact .refl s

theorem StoresKept.applyBus (e : BusEvent) (s : State) : StoresKept s (applyBus e s) := by
  cases e with
  | drainTcm side => exact .drainTcmOne s side
  | drainAhb => exact .drainAhbOne s
  | ahbWrite a b => exact .setAhb s (.writeByte _ _ b)
  | tcmWrite side offset b => exact .dmaWrite side offset b s

theorem StoresKept.applyBatch (l : List BusEvent) (s : State) :
    StoresKept s (l.foldl (fun s e => Machine.applyBus e s) s) := by
  induction l generalizing s with
  | nil => exact .refl s
  | cons e l ih => exact (StoresKept.applyBus e s).trans (ih _)

theorem StoresKept.betweenAccesses (s : State) : StoresKept s s.betweenAccesses := by
  unfold State.betweenAccesses
  split
  · exact .refl s
  · exact StoresKept.trans (StoresKept.of_same (by simp)) (.applyBatch _ _)

end Sys2Proof.Machine
end

section
/-! SUPPORT. Proofs: every access, every instruction and every step keeps the memories in form and the buffers within their sizes
(R50, R66, R70, R72, R76). -/

namespace Sys2Proof.Machine

/-! ## What an answer keeps -/

/-- Where a meaning goes on, the memories and the buffers are kept. -/
def Keeps (s : State) : Result → Prop
  | .next t => StoresKept s t
  | .fault _ => True
  | .refused _ => True

/-- Where an access completes or aborts, the memories and the buffers are kept. -/
def Access.Keeps {α : Type} (s : State) : Access α → Prop
  | .ok _ t => StoresKept s t
  | .abort t => StoresKept s t
  | .stop _ => True

/-- Where an operation that may stop does not, the memories and the buffers are kept. -/
def Checked.Keeps (s : State) : Checked → Prop
  | .ok t => StoresKept s t
  | .error _ => True

variable {s t u : State}

theorem Keeps.trans {r : Result} (h : StoresKept s t) (k : Keeps t r) : Keeps s r := by
  cases r with
  | next u => exact StoresKept.trans h k
  | fault f => trivial
  | refused f => trivial

theorem Access.Keeps.trans {α : Type} {x : Access α} (h : StoresKept s t) (k : x.Keeps t) : x.Keeps s := by
  cases x with
  | ok a u => exact StoresKept.trans h k
  | abort u => exact StoresKept.trans h k
  | stop y => trivial

theorem Checked.Keeps.trans {x : Checked} (h : StoresKept s t) (k : x.Keeps t) : x.Keeps s := by
  cases x with
  | ok u => exact StoresKept.trans h k
  | error y => trivial

theorem keeps_stop (s : State) (x : Stop) : Keeps s x.result := by cases x <;> trivial

theorem keeps_refuseIf {b : Bool} {r : Refusal} {k : Result} (h : Keeps s k) : Keeps s (refuseIf b r k) := by
  cases b
  · exact h
  · trivial

theorem keeps_onCond {c : Cond} {k : State → Result} (h : Keeps s (k s)) : Keeps s (onCond c k s) := by
  unfold onCond
  split
  · exact h
  · exact StoresKept.of_same (by simp)

/-- An exception entry touches no memory. -/
theorem StoresKept.raise (h : StoresKept s t) (k : Exc) : StoresKept s (t.raise k) :=
  h.same (by simp [State.raise, State.takeException])

theorem keeps_raiseDataAbort (h : StoresKept s t) : Keeps s (raiseDataAbort t) := (h.raise .dataAbort).same (by simp)

/-- An access as an instruction's last one: its value, or the Data Abort. -/
theorem Access.Keeps.finish {α : Type} {x : Access α} {k : α → State → Result} (h : x.Keeps s)
    (hk : ∀ a u, Machine.Keeps u (k a u)) : Machine.Keeps s (x.finish k) := by
  cases x with
  | ok a u => exact (hk a u).trans h
  | abort u => exact keeps_raiseDataAbort h
  | stop y => exact keeps_stop s y

theorem Access.Keeps.bind {α β : Type} {x : Access α} {k : α → State → Access β} (h : x.Keeps s)
    (hk : ∀ a u, (k a u).Keeps u) : (x.bind k).Keeps s := by
  cases x with
  | ok a u => exact (hk a u).trans h
  | abort u => exact h
  | stop y => trivial

/-! ## Data accesses -/

theorem StoresKept.noteCycle (h : StoresKept s t) (x : Seen) : StoresKept s (t.noteCycle x) := h.same (by simp)

theorem StoresKept.noteAbort (h : StoresKept s t) (x : Seen) : StoresKept s (noteAbort x t) := by
  unfold Machine.noteAbort
  simp only
  split
  · exact h.same (by simp)
  · exact h.same (by simp)

theorem noteRead_keeps (h : StoresKept s t) (x : Seen) (v : Word) : (noteRead x v t).Keeps s := by
  unfold noteRead
  simp only
  split
  · exact h.noteCycle x
  · trivial
  · split
    · exact h.same (by simp)
    · exact h.same (by simp)

theorem noteWrite_keeps (h : StoresKept s t) (x : Seen) : (noteWrite x s t).Keeps s := by
  unfold noteWrite
  simp only
  split
  · exact h.noteCycle x
  · trivial
  · split
    · split
      · exact h.same (by simp)
      · exact StoresKept.of_same (by simp)
    · exact h.same (by simp)

theorem readTcm_keeps (side : Side) (size : Size) (a : Word) (s : State) : (readTcm side size a s).Keeps s := by
  have waited := StoresKept.setTcm s (.waited (s.tcm side) (s.cp15.order side))
  unfold readTcm
  split
  · trivial
  · simp only
    split
    · trivial
    · split
      · exact waited
      · exact waited

theorem readAhb_keeps (user : Bool) (size : Size) (a : Word) (s : State) : (readAhb user size a s).Keeps s := by
  unfold readAhb
  split
  · trivial
  · simp only
    split
    · exact .drainAhb s
    · exact .drainAhb s

/-- The read behind MemRead, before the watchpoint logic looks at it (R51, R62). -/
def routeRead (user : Bool) (size : Size) (a : Word) (s : State) : Access Word :=
  match s.routeData a with
  | .tcm side => readTcm side size a s
  | .ahb => readAhb user size a s

theorem memRead_eq (force : Bool) (size : Size) (addr : Word) (s : State) :
    memRead force size addr s =
      if s.alignFault size addr then .abort s
      else
        match routeRead (s.userAccess force) size (alignTo size addr) s with
        | .ok v t => noteRead (dataCycle false (s.userAccess force) size (alignTo size addr) (some v)) v t
        | .abort t => .abort (noteAbort (dataCycle false (s.userAccess force) size (alignTo size addr) none) t)
        | .stop x => .stop x := rfl

theorem routeRead_keeps (user : Bool) (size : Size) (a : Word) (s : State) : (routeRead user size a s).Keeps s := by
  unfold routeRead
  split
  · exact readTcm_keeps _ size _ s
  · exact readAhb_keeps _ size _ s

theorem memRead_keeps (force : Bool) (size : Size) (addr : Word) (s : State) : (memRead force size addr s).Keeps s := by
  have read := routeRead_keeps (s.userAccess force) size (alignTo size addr) s
  rw [memRead_eq]
  split
  · exact .refl s
  · split
    next eq => rw [eq] at read; exact noteRead_keeps read _ _
    next eq => rw [eq] at read; exact StoresKept.noteAbort read _
    · trivial

theorem writeTcm_keeps (side : Side) (size : Size) (a v : Word) (s : State) : (writeTcm side size a v s).Keeps s := by
  unfold writeTcm
  split
  · trivial
  · simp only
    split
    · trivial
    · exact .setTcm s (.trans (.waited _ false) (.push _ _))

theorem writeAhb_keeps (user swap seq : Bool) (size : Size) (a v : Word) (s : State) :
    (writeAhb user swap seq size a v s).Keeps s := by
  unfold writeAhb
  simp only
  split
  · split
    · trivial
    · split
      · exact .setAhb s (.pushSeq _ rfl)
      · exact .setAhb s (.push _ rfl)
  · split
    · trivial
    · split
      · exact .drainAhb s
      · exact .setAhb s (.trans (.drain _) (.writeWord _ _ _ _ _))

theorem routeWrite_keeps (user swap seq : Bool) (size : Size) (a v : Word) (s : State) :
    (routeWrite user swap seq size a v s).Keeps s := by
  unfold routeWrite
  split
  · exact writeTcm_keeps _ size a v s
  · exact writeAhb_keeps user swap seq size a v s

theorem memWrite_keeps (force swap seq : Bool) (size : Size) (addr v : Word) (s : State) :
    (memWrite force swap seq size addr v s).Keeps s := by
  have write := routeWrite_keeps (s.userAccess force) swap seq size (alignTo size addr) v s
  unfold memWrite
  split
  · exact .refl s
  · simp only
    split
    next eq => rw [eq] at write; exact noteWrite_keeps write _
    next eq => rw [eq] at write; exact StoresKept.noteAbort write _
    · trivial

theorem StoresKept.forcedBy (s : State) (a : Word) : StoresKept s (s.forcedBy a) := by
  unfold State.forcedBy
  simp only
  split
  · exact .setTcm s (.waited _ _)
  · split
    · exact .refl s
    · exact .drainAhb s

/-! ## Sequences of words -/

theorem readWords_keeps (as : List Word) (s : State) : (readWords as s).Keeps s := by
  induction as generalizing s with
  | nil => exact .refl s
  | cons a as ih =>
    refine (memRead_keeps false .word a s).bind fun v u => Access.Keeps.bind ?_ fun vs w => StoresKept.refl w
    split
    · exact ih u
    · exact (ih _).trans (.betweenAccesses u)

theorem noteLateWrite_keeps (h : StoresKept s t) (x : Seen) : StoresKept s (noteLateWrite x s t) := by
  unfold noteLateWrite
  split
  · exact h.same (by simp)
  · split
    · have written : StoresKept s (if t.takeBool.1 = true then t else s) := by
        split
        · exact h
        · exact .refl s
      simp only
      generalize (if t.takeBool.1 = true then t else s) = w at *
      split
      · exact written.same (by simp)
      · exact written.same (by simp)
    · exact h.same (by simp)

theorem maybeStore_keeps (l : List (Word × Word)) (s : State) : StoresKept s (maybeStore l s) := by
  induction l generalizing s with
  | nil => exact .refl s
  | cons x rest ih =>
    have issue : StoresKept s s.takeBool.2 := StoresKept.of_same (by simp)
    have write := routeWrite_keeps (s.takeBool.2.userAccess false) false false .word (alignTo .word x.1) x.2 s.takeBool.2
    unfold maybeStore
    simp only
    refine issue.trans ?_
    split
    · split
      next eq => rw [eq] at write; exact (noteLateWrite_keeps write _).trans (ih _)
      next eq => rw [eq] at write; exact (StoresKept.noteAbort write _).trans (ih _)
      · exact ih _
    · exact ih _

theorem writeWords_keeps (seq : Bool) (l : List (Word × Word)) (s : State) : (writeWords seq l s).Keeps s := by
  induction l generalizing seq s with
  | nil => exact .refl s
  | cons x rest ih =>
    have write := memWrite_keeps false false seq .word x.1 x.2 s
    unfold writeWords
    split
    next u eq =>
      rw [eq] at write
      refine Access.Keeps.trans write ?_
      split
      · exact ih true u
      · exact (ih true _).trans (.betweenAccesses u)
    next eq => rw [eq] at write; exact StoresKept.trans write (maybeStore_keeps rest _)
    · trivial

end Sys2Proof.Machine
end

section
/-! SUPPORT. Proofs: every instruction keeps the memories in form and the buffers within their sizes. -/

namespace Sys2Proof.Machine

variable {s t u : State}

/-! ## Instructions that make no access -/

theorem keeps_done (s : State) : Keeps s s.done := StoresKept.of_same (by simp)

theorem keeps_jump (h : StoresKept s t) (v : Word) : Keeps s (.next (t.jump v)) := h.same (by simp)

theorem keeps_writePcArm (v : Word) (s : State) : Keeps s (writePcArm v s) := by
  unfold writePcArm
  split
  · exact keeps_jump (.refl s) v
  · trivial

theorem keeps_jumpExchange (v : Word) (s : State) : Keeps s (jumpExchange v s) := by
  unfold jumpExchange
  split
  · exact StoresKept.of_same (by simp)
  · split
    · trivial
    · exact StoresKept.of_same (by simp)

theorem keeps_jumpTo {target : Option Word} {k : Word → State} (h : ∀ v, StoresKept s (k v)) :
    Keeps s (jumpTo target k) := by
  cases target with
  | none => trivial
  | some v => exact h v

theorem keeps_exceptionReturn (v : Word) (s : State) : Keeps s (exceptionReturn v s) := by
  unfold exceptionReturn
  split
  · trivial
  · split
    · exact StoresKept.of_same (by simp)
    · trivial

theorem keeps_loadPc (v : Word) (s : State) : Keeps s (loadPc v s) := by
  unfold loadPc
  split
  · exact keeps_jump (.refl s) _
  · exact keeps_jumpExchange v s

theorem keeps_raise (k : Exc) (s : State) : Keeps s (.next (s.raise k)) := (StoresKept.refl s).raise k

/-- The template of the data-processing instructions (R171). -/
theorem keeps_aluWrite (op : AluOp) (sf : Bool) (rn rd : Reg) (sh : ShifterOut) (s : State) :
    Keeps s (aluWrite op sf rn rd sh s) := by
  unfold aluWrite
  simp only
  split
  · split
    · exact keeps_exceptionReturn _ s
    · exact keeps_writePcArm _ s
  · split
    · exact StoresKept.of_same (by simp)
    · exact StoresKept.of_same (by simp)

theorem keeps_aluTest (op : AluOp) (rn : Reg) (sh : ShifterOut) (s : State) : Keeps s (aluTest op rn sh s) :=
  StoresKept.of_same (by simp)

theorem keeps_aluShift (op : AluOp) (c : Cond) (sf : Bool) (rn rd : Reg) (sh : BitVec 5) (k : ShiftKind) (rm : Reg)
    (s : State) : Keeps s (aluShift op c sf rn rd sh k rm s) := keeps_onCond (keeps_aluWrite ..)

theorem keeps_aluRegShift (op : AluOp) (c : Cond) (sf : Bool) (rn rd rs : Reg) (k : ShiftKind) (rm : Reg) (s : State) :
    Keeps s (aluRegShift op c sf rn rd rs k rm s) := keeps_onCond (keeps_refuseIf (keeps_aluWrite ..))

theorem keeps_aluImm (op : AluOp) (c : Cond) (sf : Bool) (rn rd : Reg) (rot : BitVec 4) (imm : BitVec 8) (s : State) :
    Keeps s (aluImm op c sf rn rd rot imm s) := keeps_onCond (keeps_aluWrite ..)

theorem keeps_movShift (op : AluOp) (c : Cond) (sf : Bool) (sbz rd : Reg) (sh : BitVec 5) (k : ShiftKind) (rm : Reg)
    (s : State) : Keeps s (movShift op c sf sbz rd sh k rm s) := keeps_onCond (keeps_refuseIf (keeps_aluWrite ..))

theorem keeps_movRegShift (op : AluOp) (c : Cond) (sf : Bool) (sbz rd rs : Reg) (k : ShiftKind) (rm : Reg) (s : State) :
    Keeps s (movRegShift op c sf sbz rd rs k rm s) :=
  keeps_onCond (keeps_refuseIf (keeps_refuseIf (keeps_aluWrite ..)))

theorem keeps_movImm (op : AluOp) (c : Cond) (sf : Bool) (sbz rd : Reg) (rot : BitVec 4) (imm : BitVec 8) (s : State) :
    Keeps s (movImm op c sf sbz rd rot imm s) := keeps_onCond (keeps_refuseIf (keeps_aluWrite ..))

theorem keeps_testShift (op : AluOp) (c : Cond) (rn sbz : Reg) (sh : BitVec 5) (k : ShiftKind) (rm : Reg) (s : State) :
    Keeps s (testShift op c rn sbz sh k rm s) := keeps_onCond (keeps_refuseIf (keeps_aluTest ..))

theorem keeps_testRegShift (op : AluOp) (c : Cond) (rn sbz rs : Reg) (k : ShiftKind) (rm : Reg) (s : State) :
    Keeps s (testRegShift op c rn sbz rs k rm s) := keeps_onCond (keeps_refuseIf (keeps_refuseIf (keeps_aluTest ..)))

theorem keeps_testImm (op : AluOp) (c : Cond) (rn sbz : Reg) (rot : BitVec 4) (imm : BitVec 8) (s : State) :
    Keeps s (testImm op c rn sbz rot imm s) := keeps_onCond (keeps_refuseIf (keeps_aluTest ..))

/-- The guard of the multiplies (R188). -/
theorem keeps_mulGuard {regs : List Reg} {clash : Bool} {k : Result} (h : Keeps s k) : Keeps s (mulGuard regs clash k) :=
  keeps_refuseIf (keeps_refuseIf h)

theorem keeps_mulWrite (sf : Bool) (rd : Reg) (r : Word) (s : State) : Keeps s (mulWrite sf rd r s) := by
  cases sf
  · exact StoresKept.of_same (by simp)
  · exact StoresKept.of_same (by simp)

theorem keeps_mulWriteLong (sf : Bool) (rdHi rdLo : Reg) (p : BitVec 64) (s : State) :
    Keeps s (mulWriteLong sf rdHi rdLo p s) := by
  cases sf
  · exact StoresKept.of_same (by simp)
  · exact StoresKept.of_same (by simp)

theorem keeps_mul32 (c : Cond) (sf : Bool) (rd : Reg) (acc : State → Word) (used : List Reg) (rs rm : Reg) (s : State) :
    Keeps s (mul32 c sf rd acc used rs rm s) := keeps_onCond (keeps_mulGuard (keeps_mulWrite ..))

theorem keeps_mla (c : Cond) (sf : Bool) (rd rn rs rm : Reg) (s : State) : Keeps s (execMla c sf rd rn rs rm s) :=
  keeps_mul32 c sf rd (fun s => s.reg rn) [rn] rs rm s

theorem keeps_mul64 (signed acc : Bool) (c : Cond) (sf : Bool) (rdHi rdLo rs rm : Reg) (s : State) :
    Keeps s (mul64 signed acc c sf rdHi rdLo rs rm s) := keeps_onCond (keeps_mulGuard (keeps_mulWriteLong ..))

theorem keeps_accumulateQ (rd : Reg) (p acc : Word) (s : State) : Keeps s (accumulateQ rd p acc s) :=
  StoresKept.of_same (by simp)

theorem keeps_saturating (double sub : Bool) (c : Cond) (rn rd sbz rm : Reg) (s : State) :
    Keeps s (saturating double sub c rn rd sbz rm s) :=
  keeps_onCond (keeps_refuseIf (keeps_mulGuard (StoresKept.of_same (by simp))))

theorem keeps_exchangeTo (target : Word) (link : Bool) (s : State) : Keeps s (exchangeTo target link s) := by
  unfold exchangeTo
  split
  · exact (keeps_jumpExchange target s.linkNext).trans (StoresKept.of_same (by simp))
  · exact keeps_jumpExchange target s

theorem keeps_msr (r : Bool) (mask : BitVec 4) (operand : Word) (s : State) : Keeps s (msr r mask operand s) := by
  unfold msr
  split
  · exact keeps_done s
  · refine keeps_refuseIf ?_
    split
    · unfold msrSpsr
      split
      · trivial
      · exact StoresKept.of_same (by simp)
    · unfold msrCpsr
      split
      · exact keeps_refuseIf (keeps_refuseIf (StoresKept.of_same (by simp)))
      · exact StoresKept.of_same (by simp)

theorem keeps_mrs (c : Cond) (r : Bool) (sbo rd sbz1 sbz0 : Reg) (s : State) :
    Keeps s (execMrs c r sbo rd sbz1 sbz0 s) := by
  refine keeps_onCond (keeps_refuseIf (keeps_refuseIf ?_))
  split
  · split
    · trivial
    · exact StoresKept.of_same (by simp)
  · exact StoresKept.of_same (by simp)

/-- A write of a low register with its flags, a comparison, a high register's write: the Thumb templates. -/
theorem keeps_thumbArith (rd : LoReg) (o : AluOut) (s : State) : Keeps s (thumbArith rd o s) := StoresKept.of_same (by simp)

theorem keeps_thumbCompare (o : AluOut) (s : State) : Keeps s (thumbCompare o s) := StoresKept.of_same (by simp)

theorem keeps_thumbLogic (rd : LoReg) (r : Word) (s : State) : Keeps s (thumbLogic rd r s) := StoresKept.of_same (by simp)

theorem keeps_thumbWriteAny (rd : Reg) (v : Word) (s : State) : Keeps s (thumbWriteAny rd v s) := by
  unfold thumbWriteAny
  split
  · exact keeps_jump (.refl s) _
  · exact StoresKept.of_same (by simp)

/-! ## Loads and stores of one register -/

theorem keeps_transferGuard {wb noRd15 : Bool} {rn rd : Reg} {rm : Option Reg} {k : Result} (h : Keeps s k) :
    Keeps s (transferGuard wb rn rd rm noRd15 k) := keeps_refuseIf (keeps_refuseIf h)

/-- A base written back, or none. -/
theorem StoresKept.setReg? (s : State) (rn : Reg) (b : Option Word) : StoresKept s (s.setReg? rn b) :=
  StoresKept.of_same (by simp)

theorem keeps_loadWord (user : Bool) (rn rd : Reg) (m : Addressed) (s : State) : Keeps s (loadWord user rn rd m s) := by
  refine keeps_refuseIf ((memRead_keeps user .word m.address s).finish fun w u => ?_)
  simp only
  split
  · exact (keeps_loadPc _ _).trans (.setReg? u rn _)
  · exact StoresKept.of_same (by simp)

theorem keeps_loadNarrow (user : Bool) (size : Size) (ext : Word → Word) (rn rd : Reg) (m : Addressed) (s : State) :
    Keeps s (loadNarrow user size ext rn rd m s) :=
  keeps_refuseIf ((memRead_keeps user size m.address s).finish fun _ u => StoresKept.of_same (by simp))

theorem keeps_storeOne (user : Bool) (size : Size) (rn rd : Reg) (m : Addressed) (s : State) :
    Keeps s (storeOne user size rn rd m s) :=
  (memWrite_keeps user false false size m.address _ s).finish fun _ u => StoresKept.of_same (by simp)

theorem keeps_storeHalf (rn rd : Reg) (m : Addressed) (s : State) : Keeps s (storeHalf rn rd m s) :=
  keeps_refuseIf (keeps_storeOne ..)

/-- An operation of addressing mode 2 or 3 that keeps them for every address. -/
abbrev OpKeeps (op : Reg → Reg → Addressed → State → Result) : Prop := ∀ rn rd m s, Keeps s (op rn rd m s)

variable {op : Reg → Reg → Addressed → State → Result}

theorem keeps_mode2Imm (h : OpKeeps op) (noRd15 : Bool) (c : Cond) (x : Indexing) (u : Bool) (rn rd : Reg)
    (imm : BitVec 12) (s : State) : Keeps s (mode2Imm op noRd15 c x u rn rd imm s) :=
  keeps_onCond (keeps_transferGuard (h ..))

theorem keeps_mode2Reg (h : OpKeeps op) (noRd15 : Bool) (c : Cond) (x : Indexing) (u : Bool) (rn rd : Reg)
    (sh : BitVec 5) (k : ShiftKind) (rm : Reg) (s : State) : Keeps s (mode2Reg op noRd15 c x u rn rd sh k rm s) :=
  keeps_onCond (keeps_transferGuard (h ..))

theorem keeps_mode3 (h : OpKeeps op) (p u w : Bool) (rn rd : Reg) (rm : Option Reg) (offset : Word) (s : State) :
    Keeps s (mode3 op p u w rn rd rm offset s) := by
  unfold mode3
  split
  · trivial
  · exact keeps_transferGuard (h ..)

theorem keeps_mode3Imm (h : OpKeeps op) (c : Cond) (p u w : Bool) (rn rd : Reg) (imm : BitVec 8) (s : State) :
    Keeps s (mode3Imm op c p u w rn rd imm s) := keeps_onCond (keeps_mode3 h ..)

theorem keeps_mode3Reg (h : OpKeeps op) (c : Cond) (p u w : Bool) (rn rd sbz rm : Reg) (s : State) :
    Keeps s (mode3Reg op c p u w rn rd sbz rm s) := keeps_onCond (keeps_refuseIf (keeps_mode3 h ..))

theorem keeps_thumbLoad (size : Size) (ext : Word → Word) (address : Word) (rd : LoReg) (s : State) :
    Keeps s (thumbLoad size ext address rd s) := by
  refine (memRead_keeps false size address s).finish fun v u => ?_
  split
  · exact StoresKept.of_same (by simp)
  · exact StoresKept.of_same (by simp)

theorem keeps_thumbStore (size : Size) (address : Word) (rd : LoReg) (s : State) :
    Keeps s (thumbStore size address rd s) := by
  unfold thumbStore
  split
  · refine Keeps.trans (t := s.takeWord.2) (StoresKept.of_same (by simp)) ((memWrite_keeps ..).finish fun _ u => ?_)
    exact StoresKept.of_same (by simp)
  · exact (memWrite_keeps ..).finish fun _ u => StoresKept.of_same (by simp)

/-! ## Doublewords, swaps, multiple transfers -/

/-- The registers of an aborted load become free. -/
theorem StoresKept.freeRegs (m : Mode) (keep : Option (Fin 30)) (l : List Reg) (s : State) :
    StoresKept s (freeRegs m keep l s) := by
  induction l generalizing s with
  | nil => exact .refl s
  | cons r rs ih =>
    unfold Machine.freeRegs
    split
    · exact ih s
    · exact StoresKept.trans (StoresKept.of_same (by simp)) (ih _)

theorem keeps_doubleGuard {wb : Bool} {rn rd : Reg} {address : Word} {abort ok : Result} (ha : Keeps s abort)
    (hk : Keeps s ok) : Keeps s (doubleGuard wb rn rd address s abort ok) := by
  refine keeps_refuseIf (keeps_refuseIf (keeps_refuseIf ?_))
  split
  · split
    · exact ha
    · trivial
  · exact hk

theorem keeps_loadDouble (rn rd : Reg) (m : Addressed) (s : State) : Keeps s (loadDouble rn rd m s) := by
  have read := readWords_keeps [m.address, m.address + 4] s
  have abort {t : State} (h : StoresKept s t) :
      Keeps s (raiseDataAbort (freeRegs s.mode (s.basePlace rn) [rd, rd + 1] t)) :=
    keeps_raiseDataAbort (h.trans (.freeRegs ..))
  refine keeps_doubleGuard (abort (.refl s)) ?_
  split
  next eq => rw [eq] at read; exact StoresKept.same read (by simp)
  next eq => rw [eq] at read; exact abort read
  next eq => rw [eq] at read; exact abort read
  next x _ => exact keeps_stop s x

theorem keeps_loadDoubleReg (rm rn rd : Reg) (m : Addressed) (s : State) : Keeps s (loadDoubleReg rm rn rd m s) :=
  keeps_refuseIf (keeps_loadDouble ..)

/-- The memories of a state that has kept them, put into one whose instruction side has been kept. -/
theorem StoresKept.withMemories (h : StoresKept s t) (k : StoresKept s u) : StoresKept s (t.withMemories u) :=
  ⟨k.itcm, k.dtcm, k.ahb, h.fetch⟩

theorem keeps_strdAborted (a v : Word) {s1 s2 : State} (h1 : StoresKept s s1) (h2 : StoresKept s s2) :
    Keeps s (strdAborted a v s s1 s2) := by
  have choice : StoresKept s s2.takeBool.2 := h2.same (by simp)
  have before : StoresKept s (s1.withMemories (s.forcedBy a).betweenAccesses) :=
    h1.withMemories ((StoresKept.forcedBy s a).trans (.betweenAccesses _))
  have write := memWrite_keeps false false false .word (a + 4) v (s1.withMemories (s.forcedBy a).betweenAccesses)
  unfold strdAborted
  simp only
  split
  · exact keeps_raiseDataAbort choice
  · split
    · exact keeps_raiseDataAbort choice
    next eq => rw [eq] at write; exact keeps_raiseDataAbort (choice.withMemories (before.trans write))
    · exact keeps_raiseDataAbort choice

theorem keeps_storeDouble (rn rd : Reg) (m : Addressed) (s : State) : Keeps s (storeDouble rn rd m s) := by
  have first := memWrite_keeps false false false .word m.address (s.reg rd) s
  refine keeps_doubleGuard (keeps_raiseDataAbort (.refl s)) ?_
  split
  next x _ => exact keeps_stop s x
  next eq => rw [eq] at first; exact keeps_raiseDataAbort (StoresKept.trans first (maybeStore_keeps ..))
  next s1 eq =>
    rw [eq] at first
    have between : StoresKept s s1.betweenAccesses := StoresKept.trans first (.betweenAccesses s1)
    have second := memWrite_keeps false false true .word (m.address + 4) (s.reg (rd + 1)) s1.betweenAccesses
    split
    next x _ => exact keeps_stop s x
    next eq => rw [eq] at second; exact keeps_strdAborted _ _ between (between.trans second)
    next eq => rw [eq] at second; exact (between.trans second).same (by simp)

theorem keeps_swap (size : Size) (c : Cond) (rn rd sbz rm : Reg) (s : State) : Keeps s (swap size c rn rd sbz rm s) :=
  keeps_onCond (keeps_refuseIf (keeps_refuseIf (keeps_refuseIf
    ((memRead_keeps ..).finish fun _ _ => (memWrite_keeps ..).finish fun _ u => (StoresKept.of_same (by simp))))))

theorem StoresKept.setRegs (m : Mode) (l : List (Reg × Word)) (s : State) : StoresKept s (setRegs m l s) := by
  induction l generalizing s with
  | nil => exact .refl s
  | cons x rest ih =>
    refine StoresKept.trans ?_ (ih _)
    split
    · exact .refl s
    · exact StoresKept.of_same (by simp)

theorem keeps_loadMultiple {m : Mode} {rn : Reg} {start : Word} {regs : List Reg} {k : Word → State → Result}
    (hk : ∀ w u, Keeps u (k w u)) : Keeps s (loadMultiple m rn start regs s k) := by
  have read := readWords_keeps (wordAddresses start regs.length) s
  unfold loadMultiple
  split
  next eq => rw [eq] at read; exact (hk _ _).trans (StoresKept.trans read (.setRegs ..))
  next eq => rw [eq] at read; exact keeps_raiseDataAbort (StoresKept.trans read (.freeRegs ..))
  next x _ => exact keeps_stop s x

theorem StoresKept.multipleWriteBack (w u : Bool) (rn : Reg) (base : Word) (n : Nat) (s : State) :
    StoresKept s (multipleWriteBack w u rn base n s) := by
  unfold Machine.multipleWriteBack
  split
  · exact StoresKept.of_same (by simp)
  · exact .refl s

theorem keeps_multipleGuard {empty : Bool} {rn : Reg} {k : Result} (h : Keeps s k) : Keeps s (multipleGuard empty rn k) :=
  keeps_refuseIf (keeps_refuseIf h)

theorem keeps_ldmList (p u w : Bool) (rn : Reg) (regs : List Reg) (s : State) : Keeps s (ldmList p u w rn regs s) := by
  refine keeps_multipleGuard (keeps_refuseIf (keeps_loadMultiple fun last t => ?_))
  have base := StoresKept.multipleWriteBack w u rn (s.reg rn) regs.length t
  simp only
  split
  · exact (keeps_loadPc _ _).trans base
  · exact base.same (by simp)

theorem keeps_ldmReturn (c : Cond) (p u w : Bool) (rn : Reg) (list : BitVec 15) (s : State) :
    Keeps s (execLdmReturn c p u w rn list s) :=
  keeps_onCond (keeps_refuseIf (keeps_multipleGuard (keeps_refuseIf (keeps_loadMultiple fun _ t =>
    (keeps_exceptionReturn _ _).trans (.multipleWriteBack _ _ _ _ _ t)))))

theorem keeps_ldmUser (c : Cond) (p u w : Bool) (rn : Reg) (list : BitVec 15) (s : State) :
    Keeps s (execLdmUser c p u w rn list s) :=
  keeps_onCond (keeps_multipleGuard (keeps_refuseIf (keeps_loadMultiple fun _ t => (StoresKept.of_same (by simp)))))

theorem keeps_storeMultiple {value : Reg → Word} {w : Bool} {rn : Reg} {start : Word} {regs : List Reg} {k : State → Result}
    (hk : ∀ u, Keeps u (k u)) : Keeps s (storeMultiple value w rn start regs s k) :=
  Keeps.trans (t := s.takeWord.2) (StoresKept.of_same (by simp)) ((writeWords_keeps ..).finish fun _ u => hk u)

theorem keeps_stmList (p u w : Bool) (rn : Reg) (regs : List Reg) (s : State) : Keeps s (stmList p u w rn regs s) :=
  keeps_multipleGuard (keeps_storeMultiple fun t => (StoresKept.multipleWriteBack w u rn (s.reg rn) regs.length t).same (by simp))

theorem keeps_stmUser (c : Cond) (p u w : Bool) (rn : Reg) (list : BitVec 16) (s : State) :
    Keeps s (execStmUser c p u w rn list s) :=
  keeps_onCond (keeps_multipleGuard (keeps_refuseIf (keeps_storeMultiple fun t => (StoresKept.of_same (by simp)))))

/-! ## Coprocessor instructions -/

/-- However the handshake ends, the memories and the buffers are kept. -/
def Handshake.Keeps (s : State) : Handshake → Prop
  | .done _ t => StoresKept s t
  | .wait _ t => StoresKept s t
  | .absent t => StoresKept s t
  | .abort t => StoresKept s t
  | .stop _ => True

theorem Handshake.Keeps.trans {x : Handshake} (h : StoresKept s t) (k : x.Keeps t) : x.Keeps s := by
  cases x with
  | done ws u => exact StoresKept.trans h k
  | wait ws u => exact StoresKept.trans h k
  | absent u => exact StoresKept.trans h k
  | abort u => exact StoresKept.trans h k
  | stop y => trivial

/-- What each cycle moves keeps the memories and the buffers. -/
abbrev TransferKeeps (move : Transfer) : Prop := ∀ k w s, (move k w s).Keeps s

theorem handshakeCycles_keeps (n : Reg) (limit : Nat) {move : Transfer} (h : TransferKeeps move) (rs : List CpReply)
    (ws : List Word) (s : State) : (handshakeCycles n limit move rs ws s).Keeps s := by
  induction rs generalizing ws s with
  | nil => exact .refl s
  | cons r rs ih =>
    have rest : StoresKept s (s.setReplies n rs) := StoresKept.of_same (by simp)
    have moved (w : Word) := (h ws.length w (s.setReplies n rs)).trans rest
    cases r with
    | absent => exact rest
    | wait => exact rest
    | waitForever => exact .refl s
    | last w =>
      unfold handshakeCycles
      have moved := moved w
      split
      next eq => rw [eq] at moved; exact moved
      next eq => rw [eq] at moved; exact moved
      · trivial
    | go w =>
      unfold handshakeCycles
      have moved := moved w
      split
      next eq =>
        rw [eq] at moved
        split
        · exact moved
        · exact (ih _ _).trans moved
      next eq => rw [eq] at moved; exact moved
      · trivial

theorem StoresKept.beginCp (n : Reg) (word : Word) (s : State) : StoresKept s (beginCp n word s).2 := by
  unfold Machine.beginCp
  split
  · split
    · exact .refl s
    · exact StoresKept.of_same (by simp)
  · exact StoresKept.of_same (by simp)

theorem keeps_coprocessorInstr {n : Reg} {i : Instr} {limit : Nat} {move : Transfer} {k : List Word → State → Result}
    (h : TransferKeeps move) (hk : ∀ ws u, Keeps u (k ws u)) : Keeps s (coprocessorInstr n i limit move k s) := by
  have begins := StoresKept.beginCp n (Code.word (encode i)) s
  have ends := (handshakeCycles_keeps n limit h ((beginCp n (Code.word (encode i)) s).2.cpReplies n)
    (beginCp n (Code.word (encode i)) s).1 _).trans begins
  unfold coprocessorInstr
  simp only
  split
  next eq => rw [eq] at ends; exact (hk _ _).trans (StoresKept.same ends (by simp))
  next eq => rw [eq] at ends; exact StoresKept.same ends (by simp)
  next eq => rw [eq] at ends; exact StoresKept.raise (StoresKept.same ends (by simp)) .undefined
  next eq => rw [eq] at ends; exact keeps_raiseDataAbort (StoresKept.same ends (by simp))
  next x _ => exact keeps_stop s x

theorem takeCpdin_keeps : TransferKeeps takeCpdin := fun _ _ s => StoresKept.refl s

theorem unlessBad_keeps (bad : Option Refusal) {move : Transfer} (h : TransferKeeps move) :
    TransferKeeps (unlessBad bad move) := by
  cases bad with
  | none => exact h
  | some r => exact fun _ _ _ => trivial

theorem StoresKept.beforeWord (s : State) (k : Nat) : StoresKept s (s.beforeWord k) := by
  unfold State.beforeWord
  split
  · exact .refl s
  · exact .betweenAccesses s

theorem keeps_coprocessorOperation (n : Reg) (i : Instr) (s : State) : Keeps s (coprocessorOperation n i s) :=
  keeps_coprocessorInstr takeCpdin_keeps fun _ u => keeps_done u

/-- Words given to a coprocessor touch no memory. -/
theorem StoresKept.sendAll (n : Reg) (value : Reg → Word) (rs : List Reg) (s : State) :
    StoresKept s (rs.foldl (fun t r => t.sendCp n (.data (value r))) s) := by
  induction rs generalizing s with
  | nil => exact .refl s
  | cons r rs ih => exact StoresKept.trans (StoresKept.of_same (by simp)) (ih _)

theorem keeps_moveToCoprocessor (n : Reg) (i : Instr) (rs : List Reg) (s : State) :
    Keeps s (moveToCoprocessor n i rs s) :=
  keeps_coprocessorInstr (unlessBad_keeps _ takeCpdin_keeps) fun _ u =>
    (keeps_done _).trans (StoresKept.sendAll n u.reg rs u)

theorem keeps_writeFromCoprocessor (rd : Reg) (d : Word) (s : State) : Keeps s (writeFromCoprocessor rd d s) := by
  unfold writeFromCoprocessor
  split
  · exact StoresKept.of_same (by simp)
  · exact StoresKept.of_same (by simp)

theorem keeps_moveFromCoprocessor (n : Reg) (i : Instr) (rd : Reg) (s : State) : Keeps s (moveFromCoprocessor n i rd s) :=
  keeps_coprocessorInstr takeCpdin_keeps fun _ u => keeps_writeFromCoprocessor rd _ u

theorem keeps_moveTwoFromCoprocessor (n : Reg) (i : Instr) (rd rn : Reg) (s : State) :
    Keeps s (moveTwoFromCoprocessor n i rd rn s) := by
  unfold moveTwoFromCoprocessor
  refine keeps_coprocessorInstr (unlessBad_keeps _ takeCpdin_keeps) fun ws u => ?_
  have first : StoresKept u (firstOfTwo ws u).2 := by
    unfold firstOfTwo
    split
    · exact .refl u
    · exact StoresKept.of_same (by simp)
  generalize firstOfTwo ws u = r at first ⊢
  exact first.same (by simp)

theorem keeps_loadCoprocessor (n : Reg) (i : Instr) (a : CpIndexing) (rn : Reg) (imm : BitVec 8) (s : State) :
    Keeps s (loadCoprocessor n i a rn imm s) := by
  unfold loadCoprocessor
  refine keeps_coprocessorInstr (unlessBad_keeps _ fun k w u => ?_) fun _ u => StoresKept.of_same (by simp)
  refine Access.Keeps.trans (.beforeWord u k) ((memRead_keeps ..).bind fun _ t => ?_)
  exact StoresKept.of_same (by simp)

theorem keeps_storeCoprocessor (n : Reg) (i : Instr) (a : CpIndexing) (rn : Reg) (imm : BitVec 8) (s : State) :
    Keeps s (storeCoprocessor n i a rn imm s) := by
  unfold storeCoprocessor
  refine keeps_coprocessorInstr (unlessBad_keeps _ fun k w u => ?_) fun _ u => StoresKept.of_same (by simp)
  exact Access.Keeps.trans (.beforeWord u k) ((memWrite_keeps ..).bind fun _ t => StoresKept.refl t)

/-! ## BIST and the internal coprocessors -/

theorem failIf_keeps {b : Bool} {r : Refusal} {k : Checked} (h : k.Keeps s) : (failIf b r k).Keeps s := by
  cases b
  · exact h
  · trivial

theorem Checked.Keeps.bind {x : Checked} {k : State → Checked} (h : x.Keeps s) (hk : ∀ u, (k u).Keeps u) :
    Checked.Keeps s (Except.bind x k) := by
  cases x with
  | ok u => exact (hk u).trans h
  | error y => trivial

theorem bistWriteSide_keeps (side : Side) (field : BitVec 16) (s : State) : (bistWriteSide side field s).Keeps s := by
  refine failIf_keeps (failIf_keeps (failIf_keeps ?_))
  have forget : StoresKept s (bistForgets (s.bist side) (field.getLsbD 2) (field.getLsbD 0) s).2 := by
    unfold bistForgets
    split
    · exact StoresKept.of_same (by simp)
    · exact .refl s
  simp only
  split
  · exact forget.same (by simp)
  · exact forget.same (by simp)

theorem bistWriteControl_keeps (v : Word) (s : State) : (bistWriteControl v s).Keeps s :=
  failIf_keeps ((bistWriteSide_keeps ..).bind fun _ => bistWriteSide_keeps ..)

theorem afterAccess_keeps {side : Side} {k : Checked} (h : k.Keeps s) : (afterAccess side s k).Keeps s := by
  unfold afterAccess
  split
  · trivial
  · exact h

theorem StoresKept.setBist (s : State) (side : Side) (b : Bist) : StoresKept s (s.setBist side b) :=
  StoresKept.of_same (by simp)

/-- A poke that completes writes the memory behind the buffer. -/
theorem StoresKept.finishAccess (side : Side) (s : State) : StoresKept s (finishAccess side s) := by
  unfold Machine.finishAccess
  simp only
  split
  · exact .refl s
  · exact .setBist ..
  · refine StoresKept.trans (.setBist s side _) (.setTcm _ ?_)
    cases side
    · exact .commit ..
    · exact .commit ..

theorem StoresKept.makeAccess (side : Side) (x : BistAccess) (s : State) : StoresKept s (makeAccess side x s) := by
  unfold Machine.makeAccess
  simp only
  split
  · exact .setBist ..
  · exact StoresKept.trans (.setBist ..) (.finishAccess ..)

theorem bistWriteAddress_keeps (side : Side) (v : Word) (s : State) : (bistWriteAddress side v s).Keeps s := by
  unfold bistWriteAddress
  simp only
  split
  · refine afterAccess_keeps ?_
    have take : StoresKept s s.takeWord.2 := StoresKept.of_same (by simp)
    show StoresKept s (ite _ _ _)
    split
    · exact take.trans (StoresKept.trans (.setBist ..) (.makeAccess ..))
    · exact take.trans (.setBist ..)
  · exact .setBist ..

theorem bistWriteGeneral_keeps (side : Side) (v : Word) (s : State) : (bistWriteGeneral side v s).Keeps s := by
  unfold bistWriteGeneral
  simp only
  split
  · refine afterAccess_keeps ?_
    have take : StoresKept s s.takeBool.2 := StoresKept.of_same (by simp)
    show StoresKept s (ite _ _ _)
    split
    · exact take.trans (StoresKept.trans (.setBist ..) (.makeAccess ..))
    · exact take.trans (.setBist ..)
  · exact .setBist ..

/-- A running engine writes the memory behind the buffer. -/
theorem TcmKept.bistWord (b : Bist) (t : Tcm) (pass : BistPass) (a lo hi : Nat) (p : Word) :
    TcmKept t (bistWord b t pass a lo hi p).2 := by
  have check {t u : Tcm} {a : Nat} {want : Word} {k : Bist × Tcm} (h : TcmKept t u) (hk : TcmKept t k.2) :
      TcmKept t (bistCheck b u a want k).2 := by
    unfold bistCheck
    simp only
    split
    · exact h
    · exact hk
  cases pass with
  | one => exact .commit ..
  | two => exact check (.refl t) (check (.commit ..) (.commit ..))
  | three => exact check (.commit ..) (.commit ..)

theorem bistTick_keeps (side : Side) (s : State) : (bistTick side s).Keeps s := by
  unfold bistTick
  simp only
  split
  · exact StoresKept.refl s
  · split
    · refine failIf_keeps (StoresKept.trans (.setBist ..) (.setTcm _ ?_))
      cases side
      · exact .bistWord ..
      · exact .bistWord ..
    · exact StoresKept.refl s

theorem keeps_cp15Op {c : Cond} {rd : Reg} {k : State → Result} (h : Keeps s (k s)) : Keeps s (cp15Op c rd k s) := by
  refine keeps_onCond ?_
  split
  · exact keeps_refuseIf h
  · exact keeps_raise .undefined s

/-- A read of a register: at most a free value is taken. -/
theorem keeps_cp15Read {c : Cond} {rd : Reg} {read : State → Word × State} (h : StoresKept s (read s).2) :
    Keeps s (cp15Read c rd read s) := keeps_cp15Op (h.same (by simp))

/-- A read of a register whose value the state holds. -/
theorem keeps_cp15Value (c : Cond) (rd : Reg) (value : State → Word) (s : State) :
    Keeps s (cp15Read c rd (fun s => (value s, s)) s) :=
  keeps_cp15Read (read := fun s => (value s, s)) (StoresKept.refl s)

theorem keeps_cp15Write {c : Cond} {rd : Reg} {write : Word → State → Checked} (h : ∀ v, (write v s).Keeps s) :
    Keeps s (cp15Write c rd write s) := by
  refine keeps_cp15Op ?_
  have written := h (s.reg rd)
  cases eq : write (s.reg rd) s with
  | ok u => rw [eq] at written; exact StoresKept.same written (by simp)
  | error x => exact keeps_stop s x

theorem enableGuard_keeps {side : Side} {on : Bool} {k : Checked} (h : k.Keeps s) : (enableGuard side on s k).Keeps s :=
  failIf_keeps (failIf_keeps (failIf_keeps h))

theorem writeControl_keeps (v : Word) (s : State) : (writeControl v s).Keeps s := by
  refine enableGuard_keeps (enableGuard_keeps ⟨.refl _, .refl _, ?_, id⟩)
  show AhbKept s.ahb (ite _ _ _)
  split
  · exact .refl _
  · exact .flush _

theorem writeConfig_keeps (v : Word) (s : State) : (writeConfig v s).Keeps s :=
  failIf_keeps ⟨.setHold .., .setHold .., .refl _, id⟩

theorem bistReadAddress_keeps (side : Side) (s : State) : StoresKept s (bistReadAddress side s).2 := by
  unfold bistReadAddress
  simp only
  split
  · exact .refl s
  · exact StoresKept.of_same (by simp)

theorem bistReadGeneral_keeps (side : Side) (s : State) : StoresKept s (bistReadGeneral side s).2 := by
  unfold bistReadGeneral
  simp only
  split
  · exact .refl s
  · split
    · exact .refl s
    · exact StoresKept.of_same (by simp)

theorem keeps_bistGeneralRead (side : Side) (c : Cond) (rd : Reg) (s : State) : Keeps s (bistGeneralRead side c rd s) := by
  refine keeps_cp15Op ?_
  split
  · trivial
  · exact (bistReadGeneral_keeps side s).same (by simp)

/-- Wait for interrupt marks the buffered words as due. -/
theorem StoresKept.waitForInterrupt (s : State) : StoresKept s (waitForInterrupt s) :=
  ⟨.refl _, .refl _, .flush _, id⟩

theorem keeps_drainWriteBuffer (s : State) : Keeps s (drainWriteBuffer s) := by
  unfold drainWriteBuffer
  split
  · trivial
  · exact (keeps_done _).trans (.drainAll s)

theorem keeps_cp14Op {c : Cond} {k : State → Result} (h : Keeps s (k s)) : Keeps s (cp14Op c k s) :=
  keeps_onCond (keeps_refuseIf h)

theorem keeps_mcrProcId (c : Cond) (rd crm : Reg) (s : State) : Keeps s (execMcrProcId c rd crm s) :=
  keeps_cp15Write (write := fun v s => .ok { s with cp15 := { s.cp15 with procId := v, procIdWr := true } })
    fun _ => StoresKept.of_same (by simp)

theorem keeps_waitForInterrupt (c : Cond) (rd : Reg) (s : State) :
    Keeps s (cp15Op c rd (fun s => (waitForInterrupt s).done) s) :=
  keeps_cp15Op ((keeps_done (waitForInterrupt s)).trans (.waitForInterrupt s))

theorem keeps_p15Other (c : Cond) (l : Bool) (op1 : BitVec 3) (crn rd : Reg) (op2 : BitVec 3) (crm : Reg) (s : State) :
    Keeps s (execP15Other c l op1 crn rd op2 crm s) := by
  refine keeps_onCond (c := c) ?_
  split
  · trivial
  · exact keeps_raise .undefined s

theorem keeps_mrcCommsStatus (c : Cond) (rd : Reg) (s : State) : Keeps s (execMrcCommsStatus c rd s) :=
  keeps_cp14Op (c := c) (Keeps.trans (t := s.takeWord.2) (StoresKept.of_same (by simp)) (keeps_writeFromCoprocessor ..))

theorem keeps_mrcCommsData (c : Cond) (rd : Reg) (s : State) : Keeps s (execMrcCommsData c rd s) :=
  keeps_cp14Op (c := c) (Keeps.trans (t := { s with dcc := { s.dcc with r := false } }) (StoresKept.of_same (by simp))
    (keeps_writeFromCoprocessor ..))

theorem keeps_mrcMonitorStatus (c : Cond) (rd : Reg) (s : State) : Keeps s (execMrcMonitorStatus c rd s) :=
  keeps_cp14Op (c := c) (keeps_writeFromCoprocessor rd _ s)

theorem keeps_mcrCommsData (c : Cond) (rd : Reg) (s : State) : Keeps s (execMcrCommsData c rd s) :=
  keeps_cp14Op (c := c) (keeps_refuseIf (Keeps.trans (t := { s with dcc := { s.dcc with writeData := s.reg rd, w := true } })
    (StoresKept.of_same (by simp)) (keeps_done _)))

theorem keeps_mcrMonitorStatus (c : Cond) (rd : Reg) (s : State) : Keeps s (execMcrMonitorStatus c rd s) :=
  keeps_cp14Op (c := c) (keeps_refuseIf
    (Keeps.trans (t := { s with dcc := { s.dcc with dbgAbt := (s.reg rd).getLsbD 0 } }) (StoresKept.of_same (by simp))
      (keeps_done _)))

end Sys2Proof.Machine
end

section
/-! SUPPORT. Proofs: every step keeps the memories in form and the buffers within their sizes: the instructions one by one, the
fetch, the events, the boundary. -/

namespace Sys2Proof.Machine

variable {s t u : State}

/-! ## Every instruction -/

theorem keeps_externalOnly {cp : Reg} {k : Result} (h : Keeps s k) : Keeps s (externalOnly cp k) := keeps_refuseIf h

theorem keeps_jumpRelative {offset : Int} {k : Word → State} (h : ∀ v, StoresKept s (k v)) :
    Keeps s (jumpRelative offset k s) := keeps_jumpTo h

/-- Every instruction that goes on keeps the memories and the buffers. -/
theorem exec_keeps (i : Instr) (s : State) : Keeps s (exec i s) := by
  have go : StoresKept s s := .refl s
  cases i with
  | pldImm | pldReg => exact keeps_done s
  | unallocUncondLsm | unallocUncondMcrr | unallocUncond | unallocThumbMisc | unallocBlxSuffix => trivial
  | unallocCp | unallocArith | unallocExt | unallocMisc | p15Transfer | p15Cdp | p14Transfer | p14Cdp | p14Other =>
    apply keeps_onCond
    trivial
  | p15Other c l op1 crn rd op2 crm => exact keeps_p15Other c l op1 crn rd op2 crm s
  | undefinedArm | undefinedArm2 =>
    apply keeps_onCond
    exact keeps_raise .undefined s
  | undefinedThumb => exact keeps_raise .undefined s
  | swi =>
    apply keeps_onCond
    exact keeps_raise .swi s
  | tSwi => exact keeps_raise .swi s
  | bkpt => exact keeps_refuseIf (keeps_raise .prefetchAbort s)
  | tBkpt => exact keeps_raise .prefetchAbort s
  | ldc2 => exact keeps_externalOnly (keeps_loadCoprocessor ..)
  | stc2 => exact keeps_externalOnly (keeps_storeCoprocessor ..)
  | cdp2 => exact keeps_externalOnly (keeps_coprocessorOperation ..)
  | mcr2 => exact keeps_externalOnly (keeps_moveToCoprocessor ..)
  | mrc2 => exact keeps_externalOnly (keeps_moveFromCoprocessor ..)
  | ldc =>
    apply keeps_onCond
    exact keeps_loadCoprocessor ..
  | stc =>
    apply keeps_onCond
    exact keeps_storeCoprocessor ..
  | cdp =>
    apply keeps_onCond
    exact keeps_coprocessorOperation ..
  | mcr | mcrr =>
    apply keeps_onCond
    exact keeps_moveToCoprocessor ..
  | mrc =>
    apply keeps_onCond
    exact keeps_moveFromCoprocessor ..
  | mrrc =>
    apply keeps_onCond
    exact keeps_moveTwoFromCoprocessor ..
  | mrcTcmSize c rd => exact keeps_cp15Value c rd State.tcmSizeReg s
  | mrcIdCode c rd => exact keeps_cp15Value c rd (fun _ => idCode) s
  | mrcProcId c rd => exact keeps_cp15Value c rd (fun s => s.cp15.procId) s
  | mrcControl | mrcConfigControl | mrcBistControl =>
    have free : StoresKept s s.takeWord.2 := go.same (by simp)
    exact keeps_cp15Read free
  | mrcIBistAddress => exact keeps_cp15Read (bistReadAddress_keeps .itcm s)
  | mrcDBistAddress => exact keeps_cp15Read (bistReadAddress_keeps .dtcm s)
  | mrcIBistGeneral => exact keeps_bistGeneralRead .itcm ..
  | mrcDBistGeneral => exact keeps_bistGeneralRead .dtcm ..
  | mcrControl => exact keeps_cp15Write fun v => writeControl_keeps v s
  | mcrProcId c rd crm => exact keeps_mcrProcId c rd crm s
  | mcrConfigControl => exact keeps_cp15Write fun v => writeConfig_keeps v s
  | mcrBistControl => exact keeps_cp15Write fun v => bistWriteControl_keeps v s
  | mcrIBistAddress => exact keeps_cp15Write fun v => bistWriteAddress_keeps .itcm v s
  | mcrDBistAddress => exact keeps_cp15Write fun v => bistWriteAddress_keeps .dtcm v s
  | mcrIBistGeneral => exact keeps_cp15Write fun v => bistWriteGeneral_keeps .itcm v s
  | mcrDBistGeneral => exact keeps_cp15Write fun v => bistWriteGeneral_keeps .dtcm v s
  | mcrWaitForInterrupt | mcrWaitForInterruptLegacy => exact keeps_waitForInterrupt ..
  | mcrDrainWriteBuffer => exact keeps_cp15Op (keeps_drainWriteBuffer s)
  | mrcCommsStatus => exact keeps_mrcCommsStatus ..
  | mrcCommsData => exact keeps_mrcCommsData ..
  | mrcMonitorStatus => exact keeps_mrcMonitorStatus ..
  | mcrCommsData => exact keeps_mcrCommsData ..
  | mcrMonitorStatus => exact keeps_mcrMonitorStatus ..
  | b | tBCond =>
    apply keeps_onCond
    exact keeps_jumpRelative fun v => keeps_jump go v
  | tB => exact keeps_jumpRelative fun v => keeps_jump go v
  | bl =>
    apply keeps_onCond
    exact keeps_jumpRelative fun v => go.same (by simp)
  | blxImm => exact keeps_jumpRelative fun v => go.same (by simp)
  | bx | blxReg =>
    apply keeps_onCond
    exact keeps_refuseIf (keeps_refuseIf (keeps_exchangeTo ..))
  | tBx => exact keeps_refuseIf (keeps_refuseIf (keeps_jumpExchange ..))
  | tBlxReg => exact keeps_refuseIf (keeps_refuseIf ((keeps_jumpExchange ..).trans (t := s.thumbLink) (go.same (by simp))))
  | tBlPrefix => exact go.same (by simp)
  | tBlSuffix | tBlxSuffix => exact keeps_jumpTo fun v => go.same (by simp)
  | mrs => exact keeps_mrs ..
  | msrReg =>
    apply keeps_onCond
    exact keeps_refuseIf (keeps_refuseIf (keeps_msr ..))
  | msrImm =>
    apply keeps_onCond
    exact keeps_refuseIf (keeps_msr ..)
  | mul =>
    apply keeps_onCond
    exact keeps_refuseIf (keeps_mul32 ..)
  | mla => exact keeps_mla ..
  | umull | umlal | smull | smlal => exact keeps_mul64 ..
  | smlaxy | smlawy =>
    apply keeps_onCond
    exact keeps_mulGuard (keeps_accumulateQ ..)
  | smulxy | smulwy =>
    apply keeps_onCond
    exact keeps_refuseIf (keeps_mulGuard (keeps_mulWrite ..))
  | smlalxy =>
    apply keeps_onCond
    exact keeps_mulGuard (keeps_mulWriteLong ..)
  | qadd | qsub | qdadd | qdsub => exact keeps_saturating ..
  | clz =>
    apply keeps_onCond
    exact keeps_refuseIf (keeps_mulGuard (keeps_mulWrite ..))
  | andShift | eorShift | subShift | rsbShift | addShift | adcShift | sbcShift | rscShift | orrShift | bicShift =>
    exact keeps_aluShift ..
  | andRegShift | eorRegShift | subRegShift | rsbRegShift | addRegShift | adcRegShift | sbcRegShift | rscRegShift
  | orrRegShift | bicRegShift => exact keeps_aluRegShift ..
  | andImm | eorImm | subImm | rsbImm | addImm | adcImm | sbcImm | rscImm | orrImm | bicImm => exact keeps_aluImm ..
  | tstShift | teqShift | cmpShift | cmnShift => exact keeps_testShift ..
  | tstRegShift | teqRegShift | cmpRegShift | cmnRegShift => exact keeps_testRegShift ..
  | tstImm | teqImm | cmpImm | cmnImm => exact keeps_testImm ..
  | movShift | mvnShift => exact keeps_movShift ..
  | movRegShift | mvnRegShift => exact keeps_movRegShift ..
  | movImm | mvnImm => exact keeps_movImm ..
  | tLslImm | tLsrImm | tAsrImm | tLslReg | tLsrReg | tAsrReg | tRorReg | tAddReg | tSubReg | tAddImm3 | tSubImm3
  | tAddImm8 | tSubImm8 | tAdc | tSbc | tNeg => exact keeps_thumbArith ..
  | tMovImm | tAnd | tEor | tOrr | tBic | tMvn => exact keeps_thumbLogic ..
  | tMul => exact keeps_refuseIf (keeps_thumbLogic ..)
  | tCmpImm | tCmpReg | tCmn => exact keeps_thumbCompare ..
  | tCmpHi => exact keeps_refuseIf (keeps_refuseIf (keeps_thumbCompare ..))
  | tAddHi | tMovHi => exact keeps_refuseIf (keeps_thumbWriteAny ..)
  | tTst | tAddPcImm | tAddSpImm | tAddSp | tSubSp => exact go.same (by simp)
  | ldrtImm | ldrImm => exact keeps_mode2Imm (keeps_loadWord _) ..
  | ldrbtImm | ldrbImm => exact keeps_mode2Imm (keeps_loadNarrow _ _ _) ..
  | strtImm | strbtImm | strImm | strbImm => exact keeps_mode2Imm (keeps_storeOne _ _) ..
  | ldrtReg | ldrReg => exact keeps_mode2Reg (keeps_loadWord _) ..
  | ldrbtReg | ldrbReg => exact keeps_mode2Reg (keeps_loadNarrow _ _ _) ..
  | strtReg | strbtReg | strReg | strbReg => exact keeps_mode2Reg (keeps_storeOne _ _) ..
  | strhImm => exact keeps_mode3Imm keeps_storeHalf ..
  | strhReg => exact keeps_mode3Reg keeps_storeHalf ..
  | ldrdImm => exact keeps_mode3Imm keeps_loadDouble ..
  | ldrdReg => exact keeps_mode3Reg (keeps_loadDoubleReg _) ..
  | strdImm => exact keeps_mode3Imm keeps_storeDouble ..
  | strdReg => exact keeps_mode3Reg keeps_storeDouble ..
  | ldrhImm | ldrsbImm | ldrshImm => exact keeps_mode3Imm (keeps_loadNarrow _ _ _) ..
  | ldrhReg | ldrsbReg | ldrshReg => exact keeps_mode3Reg (keeps_loadNarrow _ _ _) ..
  | swp | swpb => exact keeps_swap ..
  | ldmReturn => exact keeps_ldmReturn ..
  | ldmUser => exact keeps_ldmUser ..
  | ldm =>
    apply keeps_onCond
    exact keeps_ldmList ..
  | stmUser => exact keeps_stmUser ..
  | stm =>
    apply keeps_onCond
    exact keeps_stmList ..
  | tPush | tStmia => exact keeps_stmList ..
  | tPop | tLdmia => exact keeps_ldmList ..
  | tLdrLit | tLdrsbReg | tLdrReg | tLdrhReg | tLdrbReg | tLdrshReg | tLdrImm | tLdrbImm | tLdrhImm | tLdrSp =>
    exact keeps_thumbLoad ..
  | tStrReg | tStrhReg | tStrbReg | tStrImm | tStrbImm | tStrhImm | tStrSp => exact keeps_thumbStore ..

/-! ## The fetch -/

/-- A fetch keeps the memories: at most the AHB write buffer is written out. The prefetch buffer and the pipeline are the
instruction side's own. -/
theorem FetchOnly.kept (h : FetchOnly s t) (fits : s.fetch.Fits → t.fetch.Fits) : StoresKept s t := by
  have itcm : t.itcm = s.itcm := by rw [h.core]
  have dtcm : t.dtcm = s.dtcm := by rw [h.core]
  refine ⟨itcm ▸ .refl _, dtcm ▸ .refl _, ?_, fits⟩
  rcases h.ahb with ahb | ahb
  · exact ahb ▸ .refl _
  · exact ahb ▸ .drain _

theorem burst_length (s : State) (n : Nat) (w : Word) : (s.burst n w).length ≤ n := by
  induction n generalizing w with
  | zero => simp [State.burst]
  | succ n ih =>
    have rest := ih (w + 4)
    unfold State.burst
    split
    · simp
    · simpa using rest

theorem ipbDepth_le (s : State) : s.ipbDepth ≤ 4 := by
  unfold State.ipbDepth
  split
  · omega
  · split <;> omega

/-- A fetch from the ITCM leaves the instruction side as it was. -/
theorem fetchItcm_fetch {f : Fetched} {a : Word} {big : Bool} (h : fetchItcm big a s = .ok (f, t)) : t.fetch = s.fetch := by
  unfold fetchItcm at h
  split at h
  · cases h
  · split at h
    · cases h
    · simp only at h
      split at h <;> obtain ⟨-, rfl⟩ := Prod.mk.inj (Except.ok.inj h) <;> rfl

/-- A fetch on the AHB takes words off the prefetch buffer, or fills it with a burst. -/
theorem fetchAhb_fits {f : Fetched} {a : Word} {big : Bool} (h : fetchAhb big a s = .ok (f, t)) (fits : s.fetch.Fits) :
    t.fetch.Fits := by
  unfold fetchAhb at h
  simp only at h
  split at h
  next e rest held =>
    obtain ⟨-, rfl⟩ := Prod.mk.inj (Except.ok.inj h)
    have shorter : (e :: rest).length ≤ 4 := (held ▸ (List.dropWhile_suffix _).length_le).trans fits.ipb
    refine ⟨?_, fits.pipe⟩
    show (ite _ _ _ : List IpbEntry).length ≤ 4
    split
    · exact shorter
    · exact (Nat.le_succ _).trans shorter
  · split at h
    · cases h
    · obtain ⟨-, rfl⟩ := Prod.mk.inj (Except.ok.inj h)
      have burst := (burst_length s.drainAhb s.drainAhb.ipbDepth (a &&& ~~~3)).trans (ipbDepth_le _)
      refine ⟨?_, fits.pipe⟩
      show (ite _ _ _ : List IpbEntry).length ≤ 4
      split
      · exact burst
      · rw [List.length_drop]
        omega

theorem fetchAt_keeps {f : Fetched} {a : Word} (h : fetchAt a s = .ok (f, t)) : StoresKept s t := by
  refine (fetchAt_frame h).kept fun fits => ?_
  unfold fetchAt at h
  split at h
  · cases h
  next g u read =>
    obtain ⟨-, rfl⟩ := Prod.mk.inj (Except.ok.inj h)
    show u.fetch.Fits
    split at read
    · exact fetchItcm_fetch read ▸ fits
    · exact fetchAhb_fits read fits

/-- A fetch on the AHB leaves the pipeline as it was. -/
theorem fetchAhb_pipe {f : Fetched} {a : Word} {big : Bool} (h : fetchAhb big a s = .ok (f, t)) :
    t.fetch.pipe = s.fetch.pipe := by
  unfold fetchAhb at h
  simp only at h
  split at h
  · obtain ⟨-, rfl⟩ := Prod.mk.inj (Except.ok.inj h)
    rfl
  · split at h
    · cases h
    · obtain ⟨-, rfl⟩ := Prod.mk.inj (Except.ok.inj h)
      rfl

/-- One fetch leaves the pipeline as it was. -/
theorem fetchAt_pipe {f : Fetched} {a : Word} (h : fetchAt a s = .ok (f, t)) : t.fetch.pipe = s.fetch.pipe := by
  unfold fetchAt at h
  split at h
  · cases h
  next g u read =>
    obtain ⟨-, rfl⟩ := Prod.mk.inj (Except.ok.inj h)
    show u.fetch.pipe = s.fetch.pipe
    split at read
    · rw [fetchItcm_fetch read]
    · exact fetchAhb_pipe read

/-- Reading ahead adds an instruction where there is room for one (R76). -/
theorem StoresKept.fetchAhead (s : State) : StoresKept s (fetchAhead s) := by
  unfold Machine.fetchAhead
  split
  · exact .refl s
  · simp only
    split
    · exact .refl s
    next room =>
      split
      · exact .refl s
      next f u fetched =>
        have kept := fetchAt_keeps fetched
        have pipe : u.fetch.pipe = s.fetch.pipe := fetchAt_pipe fetched
        refine ⟨kept.itcm, kept.dtcm, kept.ahb, fun fits => ⟨(kept.fetch fits).ipb, ?_⟩⟩
        show (u.fetch.pipe ++ [f]).length ≤ 3
        rw [List.length_append, pipe, List.length_singleton]
        omega

/-- A read of the instruction that memory holds now leaves the instruction side as it was. -/
theorem readNow_fetch {f : Fetched} {a : Word} {itcmOn big : Bool} (h : readNow itcmOn big a s = .ok (f, t)) :
    t.fetch = s.fetch := by
  unfold readNow at h
  split at h
  · exact fetchItcm_fetch h
  · split at h
    · cases h
    · obtain ⟨-, rfl⟩ := Prod.mk.inj (Except.ok.inj h)
      rfl

/-- What a held instruction turns out to be changes nothing on the instruction side. -/
theorem heldOrNew_fetch (held : Fetched) (s : State) : (heldOrNew held s).2.fetch = s.fetch := by
  unfold heldOrNew
  split
  · rfl
  next read =>
    split
    · rfl
    · split
      · rfl
      · have same := readNow_fetch read
        exact same

theorem heldOrNew_keeps (held : Fetched) (s : State) : StoresKept s (heldOrNew held s).2 :=
  (heldOrNew_frame held s).kept fun fits => by rwa [heldOrNew_fetch]

/-- A nonsequential fetch starts with nothing held. -/
theorem fetchNonseq_keeps {f : Fetched} (h : fetchNonseq s = .ok (f, t)) : StoresKept s t := by
  unfold fetchNonseq at h
  simp only at h
  refine StoresKept.trans ?_ (fetchAt_keeps h)
  exact ⟨.refl _, .refl _, .refl _, fun _ => ⟨Nat.zero_le _, Nat.zero_le _⟩⟩

/-- A sequential fetch takes what is held, or fetches one instruction more. -/
theorem fetchSeq_keeps {f : Fetched} (h : fetchSeq s = .ok (f, t)) : StoresKept s t := by
  unfold fetchSeq at h
  simp only at h
  split at h
  · cases h
  · split at h
    next g rest held =>
      obtain rfl := congrArg Prod.snd (Except.ok.inj h)
      refine StoresKept.trans (.setPipe s fun fits => ?_) (heldOrNew_keeps _ _)
      exact (held ▸ (List.dropWhile_suffix _).length_le).trans fits.pipe
    · split at h
      · cases h
      · split at h
        · cases h
        next g u fetched =>
          obtain rfl := congrArg Prod.snd (Except.ok.inj h)
          exact (fetchAt_keeps fetched).trans
            (StoresKept.trans (.setPipe u fun _ => Nat.zero_le _) (heldOrNew_keeps _ _))

/-- The instruction to execute, with at most two behind it (R76). -/
theorem fetchNext_keeps {f : Fetched} (h : fetchNext s = .ok (f, t)) : StoresKept s t := by
  unfold fetchNext at h
  split at h
  · cases h
  next g u fetched =>
    obtain ⟨-, rfl⟩ := Prod.mk.inj (Except.ok.inj h)
    have first : StoresKept s u := by
      split at fetched
      · exact fetchNonseq_keeps fetched
      · exact fetchSeq_keeps fetched
    refine first.trans (StoresKept.trans (.setPipe u fun _ => ?_) (StoresKept.trans (.fetchAhead _) (.fetchAhead _)))
    simp only [List.length_cons, List.length_take]
    omega

/-- The prefetch buffer reads one more word where there is room for one (R72). -/
theorem StoresKept.prefetchWord (s : State) : StoresKept s (prefetchWord s) := by
  unfold Machine.prefetchWord
  split
  · exact .refl s
  · simp only
    split
    · exact .refl s
    next room =>
      simp only [Bool.or_eq_true, decide_eq_true_eq, not_or, not_le] at room
      refine StoresKept.trans (.drainAhb s) (.setIpb _ fun _ => ?_)
      have depth := ipbDepth_le s
      show (s.fetch.ipb ++ _).length ≤ 4
      rw [List.length_append, List.length_singleton]
      omega

/-! ## The other agents -/

theorem scanRead_keeps {read : State → Word × State} (h : StoresKept s (read s).2) : (scanRead read s).Keeps s := h.same (by simp)

theorem scanReadGeneral_keeps (side : Side) (s : State) : (scanReadGeneral side s).Keeps s := by
  unfold scanReadGeneral
  split
  · trivial
  · exact scanRead_keeps (bistReadGeneral_keeps side s)

/-- An access through scan chain 15 reads or writes a register of CP15 (R338). -/
theorem scan15_keeps (write : Bool) (addr : BitVec 6) (v : Word) (s : State) : (scan15 write addr v s).Keeps s := by
  have free : StoresKept s s.takeWord.2 := StoresKept.of_same (by simp)
  unfold scan15
  simp only
  split
  · exact scanRead_keeps (read := fun s => (idCode, s)) (.refl s)
  · split
    · split
      · exact writeControl_keeps v s
      · exact scanRead_keeps free
    · split
      · split
        · exact bistWriteControl_keeps v s
        · exact scanRead_keeps free
      · split
        · split
          · exact bistWriteAddress_keeps .itcm v s
          · exact scanRead_keeps (bistReadAddress_keeps .itcm s)
        · split
          · split
            · exact bistWriteGeneral_keeps .itcm v s
            · exact scanReadGeneral_keeps .itcm s
          · split
            · split
              · exact bistWriteAddress_keeps .dtcm v s
              · exact scanRead_keeps (bistReadAddress_keeps .dtcm s)
            · split
              · split
                · exact bistWriteGeneral_keeps .dtcm v s
                · exact scanReadGeneral_keeps .dtcm s
              · trivial

theorem debuggerDoes_keeps {k : State → Checked} (h : (k s).Keeps s) : (debuggerDoes k s).Keeps s := by
  unfold debuggerDoes
  split
  · exact h
  · exact StoresKept.refl s

theorem inDebugOnly_keeps {k : State → Checked} (h : (k s).Keeps s) : (inDebugOnly k s).Keeps s :=
  debuggerDoes_keeps (k := fun s => failIf (!s.dbg.inDebug) .debuggerUndescribed (k s)) (failIf_keeps h)

theorem restart_keeps (s : State) : (restart s).Keeps s := failIf_keeps (StoresKept.of_same (by simp))

theorem debugStore_keeps (size : Size) (addr v : Word) (s : State) : (debugStore size addr v s).Keeps s := by
  have write := memWrite_keeps false false false size addr v s
  refine failIf_keeps ?_
  split
  next eq => rw [eq] at write; exact write
  next eq => rw [eq] at write; exact write
  · trivial

theorem debugLoad_keeps (index : Fin 30) (size : Size) (addr : Word) (s : State) :
    (debugLoad index size addr s).Keeps s := by
  have read := memRead_keeps false size addr s
  unfold debugLoad
  simp only
  split
  next eq =>
    rw [eq] at read
    split
    · exact StoresKept.same read (by simp)
    · split
      · exact StoresKept.same read (by simp)
      · exact StoresKept.same read (by simp)
    · exact StoresKept.same read (by simp)
  next eq => rw [eq] at read; exact StoresKept.same read (by simp)
  · trivial

/-- HRESETn keeps the memories and empties the buffers (R53, D18). -/
theorem StoresKept.hReset (s : State) : StoresKept s (hReset s) :=
  ⟨.afterReset .., .afterReset .., .afterReset .., fun _ => ⟨Nat.zero_le _, Nat.zero_le _⟩⟩

theorem StoresKept.setUnit (second : Bool) (u : WatchUnit) (s : State) : StoresKept s (setUnit second u s) := by
  unfold Machine.setUnit
  split
  · exact StoresKept.of_same (by simp)
  · exact StoresKept.of_same (by simp)

/-- An interface that answers again may complete a poke. -/
theorem StoresKept.setHung (itcm dtcm ahb : Bool) (s : State) : StoresKept s (setHung itcm dtcm ahb s) := by
  have answers (hung : Bool) (side : Side) (u : State) : StoresKept u (if hung then u else Machine.finishAccess side u) := by
    split
    · exact .refl u
    · exact .finishAccess side u
  exact StoresKept.trans (StoresKept.of_same (by simp)) (StoresKept.trans (answers itcm .itcm _) (answers dtcm .dtcm _))

theorem StoresKept.fetchesAlone {k : State → State} (h : StoresKept s (k s)) : StoresKept s (fetchesAlone k s) := by
  unfold Machine.fetchesAlone
  split
  · exact .refl s
  · exact h

/-- Every event of another agent keeps the memories and the buffers. -/
theorem applyEvent_keeps (e : EnvEvent) (s : State) : (applyEvent e s).Keeps s := by
  have go : StoresKept s s := .refl s
  cases e with
  | lines | fifofull | edbgrq | dbgiebkpt | dbgdewpt | dbgext | between | etmen => exact go.same (by simp)
  | bus e => exact StoresKept.applyBus e s
  | hung itcm dtcm ahb => exact StoresKept.setHung itcm dtcm ahb s
  | prefetch => exact StoresKept.fetchesAlone (.prefetchWord s)
  | pipelineFetch => exact StoresKept.fetchesAlone (.fetchAhead s)
  | bistTick side => exact bistTick_keeps side s
  | cpReply num r => exact go.same (by simp)
  | dccSend v => exact debuggerDoes_keeps (k := dccSend v) (failIf_keeps (go.same (by simp)))
  | dccReceive => exact debuggerDoes_keeps (k := fun s => .ok { s with dcc := { s.dcc with w := false } }) (go.same (by simp))
  | scan15 write addr v => exact inDebugOnly_keeps (scan15_keeps write addr v s)
  | setUnit second u => exact debuggerDoes_keeps (k := fun s => .ok (setUnit second u s)) (StoresKept.setUnit second u s)
  | setDebugControl monitor request =>
    exact debuggerDoes_keeps (k := fun s => .ok { s with dbg := { s.dbg with monitor := monitor, request := request } })
      (go.same (by simp))
  | restart => exact inDebugOnly_keeps (restart_keeps s)
  | restartBack n =>
    exact inDebugOnly_keeps (k := restartBack n) (failIf_keeps ((restart_keeps _).trans (go.same (by simp))))
  | debugReg index v => exact inDebugOnly_keeps (k := fun s => .ok { s with regs := s.regs.set index v }) (go.same (by simp))
  | debugPc v => exact inDebugOnly_keeps (k := debugPc v) (failIf_keeps (go.same (by simp)))
  | debugCpsr v => exact inDebugOnly_keeps (k := debugCpsr v) (failIf_keeps (failIf_keeps (go.same (by simp))))
  | debugSpsr index v => exact inDebugOnly_keeps (k := debugSpsr index v) (failIf_keeps (go.same (by simp)))
  | debugLoad index size addr => exact inDebugOnly_keeps (debugLoad_keeps index size addr s)
  | debugStore size addr v => exact inDebugOnly_keeps (debugStore_keeps size addr v s)
  | dbgTrst => exact go.same (by simp)
  | reset => exact StoresKept.hReset s

theorem applyEvents_keeps (l : List EnvEvent) (s : State) : (applyEvents l s).Keeps s := by
  induction l generalizing s with
  | nil => exact StoresKept.refl s
  | cons e es ih => exact (applyEvent_keeps e s).bind ih

/-! ## The step -/

/-- The clock writes a word that is due, and nothing else of memory changes. -/
theorem StoresKept.begun (s : State) : StoresKept s s.begun := by
  have clocked : StoresKept s s.clockEtm := by
    unfold State.clockEtm
    split
    · exact StoresKept.of_same (by simp)
    · exact .refl s
  have settled (u : State) : StoresKept u u.settleAhb := by
    unfold State.settleAhb
    split
    · exact .refl u
    · exact .drainAhbOne u
  exact StoresKept.trans (t := s.clockEtm.endPulses.leaveHandlers) (StoresKept.same clocked ⟨rfl, rfl, rfl, rfl, rfl⟩) (settled _)

theorem beginStep_keeps (s : State) : (beginStep s).Keeps s := by
  unfold beginStep
  simp only
  split
  · exact StoresKept.begun s
  next batch rest _ =>
    exact Checked.Keeps.trans (t := { s.begun with env := rest }) ((StoresKept.begun s).same (by simp)) (applyEvents_keeps batch _)

theorem StoresKept.enterDebugAt (h : StoresKept s t) (found : Word) : StoresKept s (enterDebugAt found t) :=
  h.same (by simp [Machine.enterDebugAt])

theorem StoresKept.enterDebug (s : State) : StoresKept s (enterDebug s) :=
  StoresKept.enterDebugAt (t := s.takeWord.2) (StoresKept.of_same (by simp)) _

theorem StoresKept.endInstruction (h : StoresKept s t) : StoresKept s (endInstruction t) := by
  unfold Machine.endInstruction
  split
  · exact h
  · exact h.same (by simp)
  · exact h.enterDebugAt _

theorem StoresKept.endEntry (h : StoresKept s t) : StoresKept s (endEntry t) := by
  unfold Machine.endEntry
  split
  · exact h
  · exact h.enterDebugAt _
  · exact h.enterDebugAt _

theorem StoresKept.enter (h : StoresKept s t) (k : Exc) : StoresKept s (t.enter k) :=
  StoresKept.endEntry (StoresKept.raise ((h.same (by simp))) k)

theorem keeps_runInstr (i : Instr) (s : State) : Keeps s (runInstr i s) := by
  have ran : Keeps s (exec i { s with userXfer := false }) := (exec_keeps i _).trans (StoresKept.of_same (by simp))
  unfold runInstr
  split
  · trivial
  · split
    next t eq =>
      rw [eq] at ran
      have shown : StoresKept s (t.executed i s) := StoresKept.same ran ⟨rfl, rfl, rfl, rfl, rfl⟩
      split
      · exact shown.same (by simp)
      · exact shown.endInstruction
    · trivial
    · trivial

theorem keeps_runFetched (f : Fetched) (s : State) : Keeps s (runFetched f s) := by
  have go : StoresKept s s := .refl s
  unfold runFetched
  split
  · exact go.enter .prefetchAbort
  · split
    · trivial
    · split
      · exact StoresKept.enter (t := s.setDbgAbt) (go.same (by simp)) .prefetchAbort
      · exact StoresKept.enterDebug s
    · split
      · trivial
      · exact keeps_runInstr _ s

theorem keeps_nextInstruction (s : State) : Keeps s (nextInstruction s) := by
  unfold nextInstruction
  split
  · split
    · trivial
    · exact keeps_runInstr _ s
  · split
    next x _ => exact keeps_stop s x
    next f u fetched =>
      have shown : StoresKept s (u.inExecute f) := StoresKept.same (fetchNext_keeps fetched) ⟨rfl, rfl, rfl, rfl, rfl⟩
      exact (keeps_runFetched f _).trans shown

theorem keeps_awakeStep (s : State) : Keeps s (awakeStep s) := by
  have go : StoresKept s s := .refl s
  unfold awakeStep
  split
  · exact go
  · split
    · exact go.enter .fiq
    · split
      · exact go.enter .irq
      · exact keeps_nextInstruction s

theorem keeps_coreStep (s : State) : Keeps s (coreStep s) := by
  unfold coreStep
  split
  · exact StoresKept.refl s
  · split
    · split
      · trivial
      · unfold debugRequested
        split
        · exact keeps_nextInstruction s
        · exact StoresKept.enterDebug s
    · split
      · exact StoresKept.refl s
      · exact (keeps_awakeStep _).trans (StoresKept.of_same (by simp))

/-- Every step keeps the memories in form and the buffers within their sizes. -/
theorem step_keeps (h : step s = .next t) : StoresKept s t := by
  have begins := beginStep_keeps s
  unfold step at h
  split at h
  next x _ => cases x <;> cases h
  next u eq =>
    rw [eq] at begins
    have kept := (keeps_coreStep u).trans begins
    rw [h] at kept
    exact kept

/-! ## The obligations -/

/-- Settles O53: every operation writes memory through `Memory.write`, which keeps the canonical form. -/
theorem memoryStaysInForm : Obligations.MemoryStaysInForm := by
  unfold Obligations.MemoryStaysInForm
  exact fun s t form run => (step_keeps run).memoryInForm form

/-- Settles O56: every operation that adds to a buffer makes room for it first. -/
theorem buffersStayFit : Obligations.BuffersStayFit := by
  unfold Obligations.BuffersStayFit
  exact fun s t fits run => (step_keeps run).buffersFit fits

end Sys2Proof.Machine
end

section
/-! SUPPORT. Proofs: the bytes and halfwords of a word (R50, R51, R54, R57). -/

namespace Sys2Proof.Machine

/-! ## Addresses within one word -/

/-- A mask that clears the `n` lowest bits rounds down to a multiple of 2^n. -/
theorem toNat_and_highMask {a m : Word} {n : Nat} (mask : ∀ k < 32, m.getLsbD k = decide (n ≤ k)) :
    (a &&& m).toNat = a.toNat / 2 ^ n * 2 ^ n := by
  have shifts : a &&& m = (a >>> n) <<< n := by
    apply BitVec.eq_of_getLsbD_eq
    intro k hk
    rw [BitVec.getLsbD_and, mask k hk, BitVec.getLsbD_shiftLeft, BitVec.getLsbD_ushiftRight]
    by_cases h : n ≤ k
    · simp [h, hk, show ¬ k < n by omega, show n + (k - n) = k by omega]
    · simp [h, show k < n by omega]
  have small : a.toNat / 2 ^ n * 2 ^ n < 2 ^ 32 := (Nat.div_mul_le_self _ _).trans_lt a.isLt
  rw [shifts, BitVec.toNat_shiftLeft, BitVec.toNat_ushiftRight, Nat.shiftRight_eq_div_pow, Nat.shiftLeft_eq,
    Nat.mod_eq_of_lt small]

theorem toNat_alignWord (a : Word) : (alignTo .word a).toNat = a.toNat / 4 * 4 :=
  toNat_and_highMask (m := ~~~3#32) (n := 2) (by decide)

theorem toNat_alignHalf (a : Word) : (alignTo .half a).toNat = a.toNat / 2 * 2 :=
  toNat_and_highMask (m := ~~~1#32) (n := 1) (by decide)

/-- An aligned word address is its own aligned address. -/
theorem alignTo_word_of_mod {a : Word} (h : a.toNat % 4 = 0) : alignTo .word a = a := by
  apply BitVec.eq_of_toNat_eq
  rw [toNat_alignWord]
  omega

theorem alignTo_half_of_mod {a : Word} (h : a.toNat % 2 = 0) : alignTo .half a = a := by
  apply BitVec.eq_of_toNat_eq
  rw [toNat_alignHalf]
  omega

/-- Two addresses of one word select the same memory (R51). -/
theorem routeData_of_word (s : State) {a b : Word} (h : a.toNat / 4 = b.toNat / 4) : s.routeData a = s.routeData b := by
  have top (x : Word) : (x.extractLsb' 26 6).toNat = x.toNat / 4 / 2 ^ 24 := by
    simp only [BitVec.extractLsb'_toNat, Nat.shiftRight_eq_div_pow]
    omega
  have : a.extractLsb' 26 6 = b.extractLsb' 26 6 := BitVec.eq_of_toNat_eq (by rw [top, top, h])
  unfold State.routeData
  rw [this]

/-- Two addresses of one word select the same word of a TCM (R50): its size is a multiple of a word. -/
theorem tcmWord_of_word (s : State) (side : Side) {a b : Word} (h : a.toNat / 4 = b.toNat / 4) :
    s.tcmWord side a = s.tcmWord side b := by
  have key (n : Nat) (x : Word) : (x.toNat % 2 ^ 26) % (4 * n) / 4 = (x.toNat / 4 % 2 ^ 24) % n := by
    rw [Nat.mod_mul_right_div_self]
    congr 1
    omega
  have words : ∃ n, tcmBytes (s.pins.tcmSize side) = 4 * n := by
    unfold tcmBytes
    split
    · exact ⟨0, rfl⟩
    · exact ⟨2 ^ ((s.pins.tcmSize side).toNat + 7), by rw [show (4 : Nat) = 2 ^ 2 by rfl, ← Nat.pow_add]; congr 1; omega⟩
  obtain ⟨n, hn⟩ := words
  unfold State.tcmWord
  rw [hn, key, key, h]

/-- Two addresses of one word have the same places (R50, R51). -/
theorem placeOf_of_word (s : State) {a b : Word} (h : a.toNat / 4 = b.toNat / 4) (k : Nat) :
    s.placeOf a k = s.placeOf b k := by
  unfold State.placeOf wordNumber
  rw [routeData_of_word s h, tcmWord_of_word s .itcm h, tcmWord_of_word s .dtcm h, h]

/-- Two addresses of one word reach the same word. -/
theorem settledWord_of_word (s : State) {a b : Word} (h : a.toNat / 4 = b.toNat / 4) :
    s.settledWord a = s.settledWord b := by
  unfold State.settledWord
  simp only [placeOf_of_word s h]

/-! ## Byte order (R54) -/

/-- A byte of a word, by the lane it is on. -/
theorem trunc_byte_shift (v : Word) (n : Nat) : Size.trunc .byte (v >>> n) = (v.extractLsb' n 8).setWidth 32 := by
  apply BitVec.eq_of_getLsbD_eq
  intro k hk
  simp [Size.trunc]

/-- A halfword of a word, by the lane it begins on. -/
theorem trunc_half_shift (v : Word) (n : Nat) : Size.trunc .half (v >>> n) = (v.extractLsb' n 16).setWidth 32 := by
  apply BitVec.eq_of_getLsbD_eq
  intro k hk
  simp [Size.trunc]

/-- The lane of a byte of an aligned word (R54). -/
theorem laneStart_byte {a : Word} (h : a.toNat % 4 = 0) (big : Bool) {k : Nat} (hk : k < 4) :
    laneStart big .byte (a + BitVec.ofNat 32 k) = if big then 3 - k else k := by
  have : ((a + BitVec.ofNat 32 k).extractLsb' 0 2).toNat = k := by
    simp only [BitVec.extractLsb'_toNat, BitVec.toNat_add, BitVec.toNat_ofNat, Nat.shiftRight_zero]
    omega
  unfold laneStart
  rw [this]

/-- The first lane of a halfword of an aligned word (R54). -/
theorem laneStart_half {a : Word} (h : a.toNat % 4 = 0) (big : Bool) {k : Nat} (hk : k < 2) :
    laneStart big .half (a + BitVec.ofNat 32 (2 * k)) = 2 * (if big then 1 - k else k) := by
  have : (a + BitVec.ofNat 32 (2 * k)).getLsbD 1 = decide (k = 1) := by
    simp only [BitVec.getLsbD, Nat.testBit_eq_decide_div_mod_eq, BitVec.toNat_add, BitVec.toNat_ofNat]
    rw [decide_eq_decide]
    omega
  unfold laneStart
  rw [this]
  cases big <;> obtain rfl | rfl : k = 0 ∨ k = 1 := by omega
  all_goals rfl

/-- Settles O20: a halfword or byte of an aligned word lies in that word, on the lanes of its byte order. -/
theorem byteOrder : Obligations.ByteOrder := by
  unfold Obligations.ByteOrder
  intro s a ha
  have inWord {k : Nat} (hk : k < 4) : (a + BitVec.ofNat 32 k).toNat = a.toNat + k := by
    rw [BitVec.toNat_add, BitVec.toNat_ofNat]
    omega
  refine ⟨?_, fun k hk => ?_, fun k hk => ?_⟩
  · unfold State.loaded
    rw [alignTo_word_of_mod ha]
    simp [takeLanes, laneStart, Size.trunc]
  · show takeLanes s.cp15.b .byte (a + BitVec.ofNat 32 k) (s.settledWord (a + BitVec.ofNat 32 k)) = _
    rw [settledWord_of_word s (b := a) (by rw [inWord hk]; omega), takeLanes, laneStart_byte ha _ hk, trunc_byte_shift]
  · have half : alignTo .half (a + BitVec.ofNat 32 (2 * k)) = a + BitVec.ofNat 32 (2 * k) :=
      alignTo_half_of_mod (by rw [inWord (by omega)]; omega)
    unfold State.loaded
    rw [half, settledWord_of_word s (b := a) (by rw [inWord (by omega)]; omega), takeLanes, laneStart_half ha _ hk,
      trunc_half_shift, ← Nat.mul_assoc]

end Sys2Proof.Machine
end

section
/-! SUPPORT. Proofs: a data access that completes or aborts (R56, R62, R63), and what stays as it was around it (R217, R318). -/

namespace Sys2Proof.Machine

variable {s t u : State}

/-! ## States that differ in the general registers and the memories only -/

theorem SameSystem.refl (s : State) : SameSystem s s := by constructor <;> rfl

theorem SameSystem.trans (h : SameSystem s t) (k : SameSystem t u) : SameSystem s u where
  spsr := k.spsr.trans h.spsr
  cp15 := k.cp15.trans h.cp15
  dcc := k.dcc.trans h.dcc
  dbg := k.dbg.trans h.dbg
  pins := k.pins.trans h.pins
  cp := k.cp.trans h.cp
  standby := k.standby.trans h.standby
  userXfer := k.userXfer.trans h.userXfer
  fiqServed := k.fiqServed.trans h.fiqServed
  irqServed := k.irqServed.trans h.irqServed
  prefixes := k.prefixes.trans h.prefixes
  etm := k.etm.trans h.etm
  between := k.between.trans h.between
  env := k.env.trans h.env
  itcmErr := k.itcmErr.trans h.itcmErr
  dtcmErr := k.dtcmErr.trans h.dtcmErr
  ahbErr := k.ahbErr.trans h.ahbErr

theorem SameMemory.trans (h : SameMemory s t) (k : SameMemory t u) : SameMemory s u := fun p => (k p).trans (h p)

/-- In the midst of an instruction: the registers outside the general ones, the CPSR and the pc are as they were. -/
structure Framed (s t : State) : Prop where
  system : SameSystem s t
  cpsr : t.cpsr = s.cpsr
  pc : t.pc = s.pc
  fetch : t.fetch = s.fetch

theorem Framed.refl (s : State) : Framed s s := ⟨.refl s, rfl, rfl, rfl⟩

theorem Framed.trans (h : Framed s t) (k : Framed t u) : Framed s u :=
  ⟨h.system.trans k.system, k.cpsr.trans h.cpsr, k.pc.trans h.pc, k.fetch.trans h.fetch⟩

theorem MemoryOnly.framed (h : MemoryOnly s t) : Framed s t := ⟨h.sameSystem, h.cpsr, h.pc, h.fetch⟩

/-- Late stores with no watchpoint that can match. -/
theorem LateStored.framed (h : LateStored s t) (dcc : t.dcc = s.dcc) (dbg : t.dbg = s.dbg) : Framed s t := by
  have core := h.core
  refine ⟨?_, by rw [core], by rw [core], by rw [core]⟩
  constructor
  case dcc => exact dcc
  case dbg => exact dbg
  case itcmErr => exact h.itcmErr
  case dtcmErr => exact h.dtcmErr
  case ahbErr => exact h.ahbErr
  all_goals rw [core]

theorem Framed.takeWord (s : State) : Framed s s.takeWord.2 := ⟨by constructor <;> rfl, rfl, rfl, rfl⟩

theorem Framed.takeBool (s : State) : Framed s s.takeBool.2 := ⟨by constructor <;> rfl, rfl, rfl, rfl⟩

theorem Framed.setBankReg (s : State) (m : Mode) (r : Reg) (v : Word) : Framed s (s.setBankReg m r v) :=
  ⟨by constructor <;> rfl, rfl, rfl, rfl⟩

theorem Framed.setReg (s : State) (r : Reg) (v : Word) : Framed s (s.setReg r v) := .setBankReg s s.mode r v

theorem Framed.setReg? (s : State) (r : Reg) (v : Option Word) : Framed s (s.setReg? r v) := by
  cases v
  · exact .refl s
  · exact .setReg s r _

theorem Framed.mode (h : Framed s t) : t.mode = s.mode := by unfold State.mode; rw [h.cpsr]

theorem Framed.nextPc (h : Framed s t) : t.nextPc = s.nextPc := by
  unfold State.nextPc State.len State.thumb
  rw [h.pc, h.cpsr]

/-- The instruction ends: the CPSR and the system are as before it, and the next one follows. -/
theorem Framed.advance (h : Framed s t) : t.advance.cpsr = s.cpsr ∧ WentOn s t.advance ∧ SameSystem s t.advance :=
  ⟨h.cpsr, ⟨h.nextPc, h.fetch⟩, h.system.trans (by constructor <;> rfl)⟩

theorem SameMemory.setReg? (h : SameMemory s t) (r : Reg) (v : Option Word) : SameMemory s (t.setReg? r v) := by
  cases v <;> exact h

@[simp] theorem State.setReg?_byteAt (s : State) (r : Reg) (v : Option Word) (p : Place) :
    (s.setReg? r v).byteAt p = s.byteAt p := by
  cases v <;> cases p <;> rfl

@[simp] theorem State.advance_byteAt (s : State) (p : Place) : s.advance.byteAt p = s.byteAt p := by cases p <;> rfl

/-- A base written back, or not. -/
theorem Framed.setReg?_regs (h : Framed s t) (regs : t.regs = s.regs) (r : Reg) (v : Option Word) :
    (t.setReg? r v).regs = s.withBase r v := by
  cases v with
  | none => exact regs
  | some b => simp [State.setReg?, State.withBase, State.withReg, regs, h.mode]

/-! ## The Data Abort (R312, R313, R318) -/

theorem AbortTaken.of_framed (h : Framed s u) : AbortTaken s (u.raise .dataAbort).lateCancel := by
  have link : u.link .dataAbort = s.pc + 8 := by rw [← h.pc]; rfl
  have system : SameSystem u { (u.raise .dataAbort).lateCancel with spsr := u.spsr } := by constructor <;> rfl
  constructor
  case link => simp [Exc.mode, link, lrReg]
  case spsr => simp only [State.lateCancel_spsr, State.raise_spsr, h.cpsr]; rw [← h.system.spsr]; rfl
  case cpsr => simp [h.cpsr]
  case pc =>
    simp only [State.lateCancel_pc, State.raise_pc, State.vectorBase, h.system.cp15]
    split <;> rfl
  case lateCancel => rfl
  case system => rw [← h.system.spsr]; exact h.system.trans system

theorem AbortedClean.of_framed (h : Framed s u) (regs : u.regs = s.regs) :
    AbortedClean s (u.raise .dataAbort).lateCancel where
  toAbortTaken := .of_framed h
  regs := by simp [regs, State.link, h.pc, Exc.mode, lrReg]

theorem byteAt_dataAbort (u : State) : SameMemory u (u.raise .dataAbort).lateCancel := fun p => by cases p <;> rfl

theorem AbortedFrom.of_memoryOnly (h : MemoryOnly s u) (memory : SameMemory s u) :
    AbortedFrom s (u.raise .dataAbort).lateCancel where
  toAbortedClean := .of_framed h.framed h.regs
  memory := memory.trans (byteAt_dataAbort u)

/-! ## States that differ in the memories only see the same accesses -/

theorem MemoryOnly.mapped (h : MemoryOnly s t) (a : Word) : t.mapped a = s.mapped a := by rw [h.core]; rfl

theorem MemoryOnly.alignFault (h : MemoryOnly s t) (size : Size) (a : Word) : t.alignFault size a = s.alignFault size a := by
  rw [h.core]; rfl

theorem MemoryOnly.ahbError (h : MemoryOnly s t) (use : BusUse) (force : Bool) (a : Word) :
    t.ahb.error use (t.userAccess force) a = s.ahb.error use (s.userAccess force) a := by
  have user : t.userAccess force = s.userAccess force := by rw [h.core]; rfl
  unfold Ahb.error
  rw [h.ahbErr, user]

theorem MemoryOnly.routeData (h : MemoryOnly s t) (a : Word) : t.routeData a = s.routeData a := by rw [h.core]; rfl

theorem MemoryOnly.writeFails (h : MemoryOnly s t) (force swap : Bool) (a : Word) :
    t.writeFails force swap a = s.writeFails force swap a := by
  have buffered : t.buffered a swap = s.buffered a swap := by rw [h.core]; rfl
  unfold State.writeFails
  rw [h.routeData, h.ahbError, buffered]

theorem MemoryOnly.writable (h : MemoryOnly s t) {force swap : Bool} {size : Size} {a : Word}
    (w : s.writable force swap size a) : t.writable force swap size a := by
  obtain ⟨unwatched, align, mapped, fails⟩ := w
  exact ⟨h.unwatched unwatched, by rw [h.alignFault, align], by rw [h.mapped, mapped], by rw [h.writeFails, fails]⟩

theorem MemoryOnly.writeAborts (h : MemoryOnly s t) {force swap : Bool} {size : Size} {a : Word}
    (w : s.writeAborts force swap size a) : t.writeAborts force swap size a := by
  obtain ⟨unwatched, why⟩ := w
  refine ⟨h.unwatched unwatched, ?_⟩
  rw [h.alignFault, h.mapped, h.writeFails]
  exact why

theorem MemoryOnly.storedByte (h : MemoryOnly s t) (force : Bool) (size : Size) (a v : Word) (p : Place) (b : Byte) :
    t.storedByte force size a v p b = s.storedByte force size a v p b := h.lateStored.storedByte force size a v p b

/-- The memories and their buffers alone have changed, and the core reads the same from them, the same errors too. -/
structure ReadOnly (s t : State) : Prop extends MemoryOnly s t where
  memory : SameMemory s t
  readFails : ∀ force size a, t.readFails force size a = s.readFails force size a

theorem ReadOnly.refl (s : State) : ReadOnly s s := ⟨.refl s, fun _ => rfl, fun _ _ _ => rfl⟩

theorem ReadOnly.trans (h : ReadOnly s t) (k : ReadOnly t u) : ReadOnly s u :=
  ⟨h.toMemoryOnly.trans k.toMemoryOnly, h.memory.trans k.memory,
    fun force size a => (k.readFails force size a).trans (h.readFails force size a)⟩

theorem ReadOnly.noteCycle (s : State) (x : Seen) : ReadOnly s (s.noteCycle x) :=
  ⟨.noteCycle s x, fun p => by cases p <;> rfl, fun _ _ _ => rfl⟩

theorem Tcm.waited_waited (t : Tcm) (order : Bool) : (t.waited order).waited order = t.waited order := by
  by_cases h : (t.hold || order) = true
  · have drained : t.waited order = t.drain := by rw [Tcm.waited, if_pos h]
    rw [drained]
    unfold Tcm.waited
    split
    · exact t.drain_drain
    · rfl
  · have kept : t.waited order = t := by rw [Tcm.waited, if_neg h]
    rw [kept, kept]

/-- A read that waits for the write buffer changes nothing that another read sees. -/
theorem ReadOnly.waited (s : State) (side : Side) :
    ReadOnly s (s.setTcm side ((s.tcm side).waited (s.cp15.order side))) where
  toMemoryOnly := .waited s side _
  memory := byteAt_waited s side _
  readFails force size a := by
    have route := (MemoryOnly.waited s side (s.cp15.order side)).routeData a
    have ahb := (MemoryOnly.waited s side (s.cp15.order side)).ahbError .read force a
    unfold State.readFails
    rw [route, ahb]
    cases side <;> cases s.routeData a with
    | ahb => rfl
    | tcm other => cases other <;> simp [State.tcmReadError, State.tcm, State.setTcm, Tcm.waited_waited] <;> rfl

theorem ReadOnly.drainAhb (s : State) : ReadOnly s s.drainAhb where
  toMemoryOnly := .drainAhb s
  memory := byteAt_drainAhb s
  readFails force size a := by
    have ahb := (MemoryOnly.drainAhb s).ahbError .read force a
    unfold State.readFails
    rw [(MemoryOnly.drainAhb s).routeData, ahb]
    cases s.routeData a with
    | ahb => rfl
    | tcm side => cases side <;> rfl

theorem ReadOnly.loaded (h : ReadOnly s t) (size : Size) (a : Word) : t.loaded size a = s.loaded size a := by
  have cp15 := h.sameSystem.cp15
  unfold State.loaded State.settledWord
  rw [cp15, h.memory, h.memory, h.memory, h.memory, h.placeOf, h.placeOf, h.placeOf, h.placeOf]

theorem ReadOnly.readable (h : ReadOnly s t) {force : Bool} {size : Size} {a : Word} (r : s.readable force size a) :
    t.readable force size a := by
  obtain ⟨unwatched, align, mapped, fails⟩ := r
  exact ⟨h.unwatched unwatched, by rw [h.alignFault, align], by rw [h.mapped, mapped], by rw [h.readFails, fails]⟩

theorem ReadOnly.readAborts (h : ReadOnly s t) {force : Bool} {size : Size} {a : Word} (r : s.readAborts force size a) :
    t.readAborts force size a := by
  obtain ⟨unwatched, why⟩ := r
  refine ⟨h.unwatched unwatched, ?_⟩
  rw [h.alignFault, h.mapped, h.readFails]
  exact why

/-! ## MemRead (R62) -/

/-- A read that its memory answers, with a value or an error, changes nothing that another read sees. -/
theorem routeRead_readOnly {user : Bool} {size : Size} {a v : Word}
    (h : routeRead user size a s = .ok v t ∨ routeRead user size a s = .abort t) : ReadOnly s t := by
  unfold routeRead at h
  split at h
  · rename_i side _
    unfold readTcm at h
    split at h
    · simp at h
    · dsimp only at h
      split at h
      · simp [Access.hangs] at h
      · split at h
        · obtain rfl : _ = t := by simpa using h
          exact .waited s side
        · obtain ⟨-, rfl⟩ : _ ∧ _ = t := by simpa using h
          exact .waited s side
  · unfold readAhb at h
    split at h
    · simp [Access.hangs] at h
    · dsimp only at h
      split at h
      · obtain rfl : _ = t := by simpa using h
        exact .drainAhb s
      · obtain ⟨-, rfl⟩ : _ ∧ _ = t := by simpa using h
        exact .drainAhb s

/-- Where no watchpoint can match, a MemRead that completes or aborts changes nothing that another read sees. -/
theorem memRead_readOnly {force : Bool} {size : Size} {a v : Word} (hw : s.unwatched)
    (h : memRead force size a s = .ok v t ∨ memRead force size a s = .abort t) : ReadOnly s t := by
  rw [memRead_eq] at h
  split at h
  · obtain rfl : s = t := by simpa using h
    exact .refl s
  · split at h
    next w u eq =>
      have read := routeRead_readOnly (.inl eq)
      rw [noteRead, watchAnswer_unwatched (read.unwatched hw) rfl] at h
      obtain ⟨-, rfl⟩ : _ ∧ _ = t := by simpa using h
      exact read.trans (.noteCycle u _)
    next u eq =>
      have read := routeRead_readOnly (v := 0) (.inr eq)
      rw [noteAbort_unwatched (read.unwatched hw) rfl] at h
      obtain rfl : _ = t := by simpa using h
      exact read.trans (.noteCycle u _)
    · simp at h

/-- MemRead where it completes. -/
theorem memRead_readable {force : Bool} {size : Size} {a : Word} (h : s.readable force size a) :
    ∃ t, memRead force size a s = .ok (s.loaded size a) t ∧ ReadOnly s t := by
  obtain ⟨t, ht, -⟩ := memRead_ok h
  exact ⟨t, ht, memRead_readOnly h.1 (.inl ht)⟩

/-- A read that its memory answers with an error. -/
theorem routeRead_fails {force : Bool} {size : Size} {a : Word} (mapped : s.mapped a = true)
    (fails : s.readFails force size a = true) : ∃ t, routeRead (s.userAccess force) size a s = .abort t := by
  unfold State.mapped at mapped
  unfold State.readFails at fails
  unfold routeRead
  cases hr : s.routeData a with
  | tcm side =>
    rw [hr] at mapped fails
    simp only [Bool.and_eq_true, Option.isNone_iff_eq_none, Bool.not_eq_true'] at mapped
    unfold State.tcmReadError at fails
    unfold readTcm
    simp only [mapped.1, mapped.2, fails, Bool.false_and, Bool.false_eq_true, if_false, if_true]
    exact ⟨_, rfl⟩
  | ahb =>
    rw [hr] at mapped fails
    simp only [Bool.not_eq_true'] at mapped
    have fails' : s.drainAhb.ahb.error .read (s.userAccess force) a = true := by
      rw [← fails]; simp [Ahb.error]
    unfold readAhb
    simp only [mapped, fails', Bool.false_eq_true, if_false, if_true]
    exact ⟨_, rfl⟩

/-- MemRead where it takes the Data Abort. -/
theorem memRead_aborts {force : Bool} {size : Size} {a : Word} (h : s.readAborts force size a) :
    ∃ t, memRead force size a s = .abort t ∧ ReadOnly s t := by
  obtain ⟨unwatched, why⟩ := h
  have key : ∃ t, memRead force size a s = .abort t := by
    rw [memRead_eq]
    by_cases fault : s.alignFault size a = true
    · exact ⟨s, if_pos fault⟩
    · obtain ⟨mapped, fails⟩ := why.resolve_left fault
      obtain ⟨t, ht⟩ := routeRead_fails mapped fails
      rw [if_neg fault, ht]
      exact ⟨_, rfl⟩
  obtain ⟨t, ht⟩ := key
  exact ⟨t, ht, memRead_readOnly (v := 0) unwatched (.inr ht)⟩

/-- A read of the AHB that is never answered (R357). -/
theorem memRead_hangs {force : Bool} {size : Size} {a : Word} (align : s.alignFault size a = false)
    (route : s.routeData (alignTo size a) = .ahb) (hung : s.pins.ahbHung = true) :
    memRead force size a s = .stop (.fault .accessNeverCompletes) := by
  rw [memRead_eq, align, routeRead, route]
  simp [readAhb, hung, Access.hangs]

/-! ## MemWrite (R63) -/

/-- A write that its memory answers with an error. -/
theorem routeWrite_fails {force swap seq : Bool} {size : Size} {a v : Word} (mapped : s.mapped a = true)
    (fails : s.writeFails force swap a = true) :
    ∃ t, routeWrite (s.userAccess force) swap seq size a v s = .abort t := by
  unfold State.mapped at mapped
  unfold State.writeFails at fails
  unfold routeWrite
  cases hr : s.routeData a with
  | tcm side => rw [hr] at fails; cases fails
  | ahb =>
    rw [hr] at mapped fails
    simp only [Bool.not_eq_true', Bool.and_eq_true] at mapped fails
    have fails' : s.drainAhb.ahb.error .write (s.userAccess force) a = true := by
      rw [← fails.2]; simp [Ahb.error]
    unfold writeAhb
    simp only [mapped, fails.1, fails', Bool.false_eq_true, if_false, if_true]
    exact ⟨_, rfl⟩

/-- MemWrite where it takes the Data Abort: no byte has changed. -/
theorem memWrite_aborts {force swap seq : Bool} {size : Size} {a v : Word} (h : s.writeAborts force swap size a) :
    ∃ t, memWrite force swap seq size a v s = .abort t ∧ MemoryOnly s t ∧ SameMemory s t := by
  obtain ⟨unwatched, why⟩ := h
  unfold memWrite
  by_cases fault : s.alignFault size a = true
  · exact ⟨s, if_pos fault, .refl s, fun _ => rfl⟩
  · obtain ⟨mapped, fails⟩ := why.resolve_left fault
    obtain ⟨t, ht⟩ := routeWrite_fails (size := size) (seq := seq) (v := v) mapped fails
    have only := routeWrite_memoryOnly (.inr ht)
    have same := routeWrite_abort_sameMemory ht
    rw [if_neg fault]
    simp only [ht]
    rw [noteAbort_unwatched (only.unwatched unwatched) rfl]
    exact ⟨_, rfl, only.trans (.noteCycle t _), same.trans (ReadOnly.noteCycle t _).memory⟩

end Sys2Proof.Machine
end

section
/-! SUPPORT. Proofs: the loads and stores of one register (R215 to R228, R278 to R295). -/

namespace Sys2Proof.Machine

variable {s : State}

/-! ## Forms that no rule excludes -/

/-- The restrictions on registers, where they are met (R215, R216). -/
theorem transferGuard_legal {wb noRd15 : Bool} {rn rd : Reg} {rm : Option Reg}
    (legal : transferLegal wb rn rd rm noRd15 = true) (k : Result) : transferGuard wb rn rd rm noRd15 k = k := by
  simp only [transferLegal, Bool.and_eq_true, Bool.not_eq_true', decide_eq_true_eq, ne_eq] at legal
  obtain ⟨⟨⟨index, base⟩, dest⟩, clash⟩ := legal
  simp only [transferGuard, index, base, dest, clash, decide_false, Bool.or_self, refuseIf_false]

theorem mode2Imm_legal {op : Reg → Reg → Addressed → State → Result} {noRd15 : Bool} {c : Cond} {x : Indexing} {u : Bool}
    {rn rd : Reg} {imm : BitVec 12} (hc : Cond.holds c s.cpsr = true)
    (legal : transferLegal (writesBack x) rn rd none noRd15 = true) :
    mode2Imm op noRd15 c x u rn rd imm s = op rn rd (addressMode2 x u (s.reg rn) (imm.setWidth 32)) s := by
  rw [mode2Imm, onCond_pass _ hc, transferGuard_legal legal]

theorem mode2Reg_legal {op : Reg → Reg → Addressed → State → Result} {noRd15 : Bool} {c : Cond} {x : Indexing} {u : Bool}
    {rn rd rm : Reg} {sh : BitVec 5} {k : ShiftKind} (hc : Cond.holds c s.cpsr = true)
    (legal : transferLegal (writesBack x) rn rd (some rm) noRd15 = true) :
    mode2Reg op noRd15 c x u rn rd sh k rm s = op rn rd (addressMode2 x u (s.reg rn) (indexOffset sh k rm s)) s := by
  rw [mode2Reg, onCond_pass _ hc, transferGuard_legal legal]

/-- The base is written back in all forms of addressing mode 3 but the offset form (R216). -/
theorem addressMode3_newBase {p u w : Bool} {base offset : Word} {m : Addressed}
    (h : addressMode3 p u w base offset = some m) : m.newBase.isSome = (!p || w) := by
  cases p <;> cases w <;> simp [addressMode3] at h <;> subst h <;> rfl

theorem mode3_legal {op : Reg → Reg → Addressed → State → Result} {p u w : Bool} {rn rd : Reg} {rm : Option Reg}
    {offset : Word} {m : Addressed} (hm : addressMode3 p u w (s.reg rn) offset = some m)
    (legal : transferLegal m.newBase.isSome rn rd rm true = true) :
    mode3 op p u w rn rd rm offset s = op rn rd m s := by
  rw [addressMode3_newBase hm] at legal
  simp only [mode3, hm, transferGuard_legal legal]

theorem mode3Imm_legal {op : Reg → Reg → Addressed → State → Result} {c : Cond} {p u w : Bool} {rn rd : Reg}
    {imm : BitVec 8} {m : Addressed} (hc : Cond.holds c s.cpsr = true)
    (hm : addressMode3 p u w (s.reg rn) (imm.setWidth 32) = some m)
    (legal : transferLegal m.newBase.isSome rn rd none true = true) :
    mode3Imm op c p u w rn rd imm s = op rn rd m s := by
  rw [mode3Imm, onCond_pass _ hc, mode3_legal hm legal]

theorem mode3Reg_legal {op : Reg → Reg → Addressed → State → Result} {c : Cond} {p u w : Bool} {rn rd rm : Reg}
    {m : Addressed} (hc : Cond.holds c s.cpsr = true) (hm : addressMode3 p u w (s.reg rn) (s.reg rm) = some m)
    (legal : transferLegal m.newBase.isSome rn rd (some rm) true = true) :
    mode3Reg op c p u w rn rd 0 rm s = op rn rd m s := by
  rw [mode3Reg, onCond_pass _ hc, mode3_legal hm legal]
  rfl

/-! ## The loads of one register, by what they run -/

/-- What a load of one register runs once its condition holds. -/
inductive LoadRun (s : State) (x : LoadForm) : Bool → Result → Prop
  | word (size : x.size = .word) : LoadRun s x true (loadWord x.force x.rn x.rd x.at_ s)
  | narrow (ext : Word → Word) (size : x.size ≠ .word) (dest : x.rd ≠ 15) (value : ∀ v, x.value v = ext v) :
      LoadRun s x false (loadNarrow x.force x.size ext x.rn x.rd x.at_ s)
  | thumb (ext : Word → Word) (rd : LoReg) (dest : x.rd = rd.reg) (base : x.at_.newBase = none) (user : x.force = false)
      (value : misaligned x.size x.at_.address = false → ∀ v, x.value v = ext v) :
      LoadRun s x false (thumbLoad x.size ext x.at_.address rd s)

theorem load2_some {c : Cond} {force : Bool} {size : Size} {x : Indexing} {u : Bool} {rn rd : Reg} {rm : Option Reg}
    {offset : Word} {y : LoadForm} (h : s.load2 c force size x u rn rd rm offset = some y) :
    transferLegal (writesBack x) rn rd rm (decide (size ≠ .word) || force) = true ∧
      y = ⟨c, force, size, false, rd, rn, addressMode2 x u (s.reg rn) offset⟩ := by
  unfold State.load2 at h
  split at h
  · exact ⟨‹_›, (Option.some.inj h).symm⟩
  · cases h

theorem load3_some {c : Cond} {size : Size} {signed p u w : Bool} {rn rd : Reg} {rm : Option Reg} {offset : Word}
    {y : LoadForm} (h : s.load3 c size signed p u w rn rd rm offset = some y) :
    ∃ m, addressMode3 p u w (s.reg rn) offset = some m ∧ transferLegal m.newBase.isSome rn rd rm true = true ∧
      y = ⟨c, false, size, signed, rd, rn, m⟩ := by
  unfold State.load3 at h
  split at h
  · cases h
  next m hm =>
    split at h
    · exact ⟨m, hm, ‹_›, (Option.some.inj h).symm⟩
    · cases h

/-- A form that excludes R15 as its destination (R222, R224). -/
theorem transferLegal_dest {wb : Bool} {rn rd : Reg} {rm : Option Reg} (h : transferLegal wb rn rd rm true = true) :
    rd ≠ 15 := by
  rintro rfl
  simp [transferLegal] at h

theorem LoadRun.word2Imm {c : Cond} {force : Bool} {x : Indexing} {u : Bool} {rn rd : Reg} {imm : BitVec 12} {y : LoadForm}
    (h : s.load2 c force .word x u rn rd none (imm.setWidth 32) = some y) (hc : Cond.holds y.cond s.cpsr = true) :
    LoadRun s y true (mode2Imm (loadWord force) force c x u rn rd imm s) := by
  obtain ⟨legal, rfl⟩ := load2_some h
  rw [mode2Imm_legal (noRd15 := force) (c := c) hc legal]
  exact .word rfl

theorem LoadRun.word2Reg {c : Cond} {force : Bool} {x : Indexing} {u : Bool} {rn rd rm : Reg} {sh : BitVec 5}
    {k : ShiftKind} {y : LoadForm} (h : s.load2 c force .word x u rn rd (some rm) (indexOffset sh k rm s) = some y)
    (hc : Cond.holds y.cond s.cpsr = true) :
    LoadRun s y true (mode2Reg (loadWord force) force c x u rn rd sh k rm s) := by
  obtain ⟨legal, rfl⟩ := load2_some h
  rw [mode2Reg_legal (noRd15 := force) (c := c) hc legal]
  exact .word rfl

theorem LoadRun.byte2Imm {c : Cond} {force : Bool} {x : Indexing} {u : Bool} {rn rd : Reg} {imm : BitVec 12} {y : LoadForm}
    (h : s.load2 c force .byte x u rn rd none (imm.setWidth 32) = some y) (hc : Cond.holds y.cond s.cpsr = true) :
    LoadRun s y false (mode2Imm (loadNarrow force .byte id) true c x u rn rd imm s) := by
  obtain ⟨legal, rfl⟩ := load2_some h
  rw [mode2Imm_legal (noRd15 := true) (c := c) hc legal]
  exact .narrow id Size.noConfusion (transferLegal_dest legal) fun _ => rfl

theorem LoadRun.byte2Reg {c : Cond} {force : Bool} {x : Indexing} {u : Bool} {rn rd rm : Reg} {sh : BitVec 5}
    {k : ShiftKind} {y : LoadForm} (h : s.load2 c force .byte x u rn rd (some rm) (indexOffset sh k rm s) = some y)
    (hc : Cond.holds y.cond s.cpsr = true) :
    LoadRun s y false (mode2Reg (loadNarrow force .byte id) true c x u rn rd sh k rm s) := by
  obtain ⟨legal, rfl⟩ := load2_some h
  rw [mode2Reg_legal (noRd15 := true) (c := c) hc legal]
  exact .narrow id Size.noConfusion (transferLegal_dest legal) fun _ => rfl

/-- What a load of a byte or a halfword does with the value it reads (R222, R225, R227, R228). -/
def narrowExt : Size → Bool → Word → Word
  | .half, true => signHalf
  | .byte, true => signByte
  | .word, _ => id
  | .half, false => id
  | .byte, false => id

theorem LoadForm.value_narrow (x : LoadForm) (h : x.size ≠ .word) (v : Word) : x.value v = narrowExt x.size x.signed v := by
  have low (n : Nat) : v.extractLsb' 0 n = v.setWidth n := by simp [BitVec.extractLsb']
  obtain ⟨c, force, size, signed, rd, rn, m⟩ := x
  cases size with
  | word => exact absurd rfl h
  | half => cases signed <;> simp [LoadForm.value, narrowExt, signHalf, low]
  | byte => cases signed <;> simp [LoadForm.value, narrowExt, signByte, low]

theorem LoadRun.narrow3Imm {c : Cond} {size : Size} {signed p u w : Bool} {rn rd : Reg} {imm : BitVec 8} {y : LoadForm}
    (hs : size ≠ .word) (h : s.load3 c size signed p u w rn rd none (imm.setWidth 32) = some y)
    (hc : Cond.holds y.cond s.cpsr = true) :
    LoadRun s y false (mode3Imm (loadNarrow false size (narrowExt size signed)) c p u w rn rd imm s) := by
  obtain ⟨m, hm, legal, rfl⟩ := load3_some h
  rw [mode3Imm_legal (c := c) hc hm legal]
  exact .narrow (narrowExt size signed) hs (transferLegal_dest legal) (LoadForm.value_narrow _ hs)

theorem LoadRun.narrow3Reg {c : Cond} {size : Size} {signed p u w : Bool} {rn rd sbz rm : Reg} {y : LoadForm}
    (hs : size ≠ .word) (h : (if sbz = 0 then s.load3 c size signed p u w rn rd (some rm) (s.reg rm) else none) = some y)
    (hc : Cond.holds y.cond s.cpsr = true) :
    LoadRun s y false (mode3Reg (loadNarrow false size (narrowExt size signed)) c p u w rn rd sbz rm s) := by
  split at h
  next zero =>
    subst zero
    obtain ⟨m, hm, legal, rfl⟩ := load3_some h
    rw [mode3Reg_legal (c := c) hc hm legal]
    exact .narrow (narrowExt size signed) hs (transferLegal_dest legal) (LoadForm.value_narrow _ hs)
  · cases h

theorem misaligned_word_iff (a : Word) : misaligned .word a = false ↔ a.toNat % 4 = 0 := by
  rw [misaligned, decide_eq_false_iff_not, not_not]
  constructor
  · intro h
    rw [← h, toNat_alignWord]
    omega
  · exact alignTo_word_of_mod

theorem LoadRun.thumbForm {size : Size} {signed : Bool} {rd : LoReg} {a : Word} {y : LoadForm}
    (h : thumbLoadForm size signed rd a = some y) :
    LoadRun s y false (thumbLoad size (narrowExt size signed) a rd s) := by
  obtain rfl := Option.some.inj h
  refine .thumb (narrowExt size signed) rd rfl rfl rfl fun align v => ?_
  by_cases hs : size = .word
  · subst hs
    have zero : a.toNat % 4 = 0 := (misaligned_word_iff a).mp align
    show v.rotateRight (8 * (a.toNat % 4)) = v
    rw [zero]
    simp [BitVec.rotateRight, BitVec.rotateRightAux]
  · exact LoadForm.value_narrow _ hs v

/-- Every load of one register runs one of the three. -/
theorem exec_loadRun {i : Instr} {x : LoadForm} (h : s.loadOf i = some x) (hc : Cond.holds x.cond s.cpsr = true) :
    LoadRun s x (armTransfer i) (exec i s) := by
  unfold State.loadOf at h
  split at h
  · exact .word2Imm h hc
  · exact .word2Reg h hc
  · exact .byte2Imm h hc
  · exact .byte2Reg h hc
  · exact .word2Imm h hc
  · exact .word2Reg h hc
  · exact .byte2Imm h hc
  · exact .byte2Reg h hc
  · exact .narrow3Imm (size := .half) (signed := false) (by decide) h hc
  · exact .narrow3Reg (size := .half) (signed := false) (by decide) h hc
  · exact .narrow3Imm (size := .byte) (signed := true) (by decide) h hc
  · exact .narrow3Reg (size := .byte) (signed := true) (by decide) h hc
  · exact .narrow3Imm (size := .half) (signed := true) (by decide) h hc
  · exact .narrow3Reg (size := .half) (signed := true) (by decide) h hc
  · exact .thumbForm (size := .word) (signed := false) h
  · exact .thumbForm (size := .word) (signed := false) h
  · exact .thumbForm (size := .half) (signed := false) h
  · exact .thumbForm (size := .byte) (signed := false) h
  · exact .thumbForm (size := .byte) (signed := true) h
  · exact .thumbForm (size := .half) (signed := true) h
  · exact .thumbForm (size := .word) (signed := false) h
  · exact .thumbForm (size := .byte) (signed := false) h
  · exact .thumbForm (size := .half) (signed := false) h
  · exact .thumbForm (size := .word) (signed := false) h
  · cases h

end Sys2Proof.Machine
end

section
/-! SUPPORT. Proofs: the result of a load and of a store of one register (R217 to R228, R278 to R295). -/

namespace Sys2Proof.Machine

variable {s t u : State}

/-! ## Loads -/

/-- A load that has completed: Rd has the value, the base the new base where the form writes it back, and nothing else has
changed. -/
def LoadDone (s : State) (rn : Reg) (newBase : Option Word) (rd : Reg) (v : Word) (t : State) : Prop :=
  t.regs = (s.withBase rn newBase).set (physIndex s.mode rd) v ∧ t.cpsr = s.cpsr ∧ WentOn s t ∧ SameSystem s t ∧
    SameMemory s t

theorem loadDone_of_readOnly (h : ReadOnly s u) (rn : Reg) (newBase : Option Word) (rd : Reg) (v : Word) :
    LoadDone s rn newBase rd v ((u.setReg? rn newBase).setReg rd v).advance := by
  have based : Framed s (u.setReg? rn newBase) := h.framed.trans (.setReg? u rn newBase)
  obtain ⟨cpsr, went, system⟩ := (based.trans (.setReg _ rd v)).advance
  have regs := h.framed.setReg?_regs h.regs rn newBase
  refine ⟨?_, cpsr, went, system, h.memory.setReg? rn newBase⟩
  simp [regs, based.mode]

/-- The rotation of an unaligned word, by the two low bits of its address (R220). -/
theorem rotateLoaded_eq (a v : Word) : rotateLoaded a v = v.rotateRight (8 * (a.toNat % 4)) := by
  unfold rotateLoaded
  rw [BitVec.extractLsb'_toNat, Nat.shiftRight_zero]

theorem loadWord_readable {user : Bool} {rn rd : Reg} {m : Addressed} (dest : rd ≠ 15)
    (h : s.readable user .word m.address) :
    ∃ t, loadWord user rn rd m s = .next t ∧
      LoadDone s rn m.newBase rd (rotateLoaded m.address (s.loaded .word m.address)) t := by
  obtain ⟨u, read, only⟩ := memRead_readable h
  refine ⟨_, ?_, loadDone_of_readOnly only rn m.newBase rd _⟩
  simp only [loadWord, read, Access.finish, dest, decide_false, Bool.false_and, refuseIf_false, if_false]

theorem loadNarrow_readable {user : Bool} {size : Size} {ext : Word → Word} {rn rd : Reg} {m : Addressed}
    (aligned : misaligned size m.address = false) (h : s.readable user size m.address) :
    ∃ t, loadNarrow user size ext rn rd m s = .next t ∧
      LoadDone s rn m.newBase rd (ext (s.loaded size m.address)) t := by
  obtain ⟨u, read, only⟩ := memRead_readable h
  refine ⟨_, ?_, loadDone_of_readOnly only rn m.newBase rd _⟩
  simp only [loadNarrow, read, Access.finish, aligned, Bool.and_false, refuseIf_false]

theorem thumbLoad_readable {size : Size} {ext : Word → Word} {a : Word} {rd : LoReg}
    (aligned : misaligned size a = false) (h : s.readable false size a) (rn : Reg) :
    ∃ t, thumbLoad size ext a rd s = .next t ∧ LoadDone s rn none rd.reg (ext (s.loaded size a)) t := by
  obtain ⟨u, read, only⟩ := memRead_readable h
  refine ⟨_, ?_, loadDone_of_readOnly only rn none rd.reg _⟩
  simp only [thumbLoad, read, Access.finish, aligned, Bool.false_eq_true, if_false]
  rfl

/-- What every load does with its access, where no rule stops it: the access comes first. -/
theorem LoadRun.stops {x : LoadForm} {arm : Bool} {r : Result} {y : Stop} (run : LoadRun s x arm r) (dest : x.rd ≠ 15)
    (aligned : arm = true ∨ misaligned x.size x.at_.address = false)
    (h : memRead x.force x.size x.at_.address s = .stop y) : r = y.result := by
  cases run with
  | word size =>
    rw [size] at h
    simp only [loadWord, h, Access.finish, dest, decide_false, Bool.false_and, refuseIf_false]
  | narrow ext size dest value =>
    have aligned := aligned.resolve_left Bool.false_ne_true
    simp only [loadNarrow, h, Access.finish, aligned, Bool.and_false, refuseIf_false]
  | thumb ext rd dest base user value =>
    rw [user] at h
    simp only [thumbLoad, h, Access.finish]

theorem LoadRun.completes {x : LoadForm} {arm : Bool} {r : Result} (run : LoadRun s x arm r) (dest : x.rd ≠ 15)
    (aligned : arm = true ∨ misaligned x.size x.at_.address = false) (h : s.readable x.force x.size x.at_.address) :
    ∃ t, r = .next t ∧ LoadDone s x.rn x.at_.newBase x.rd (x.value (s.loaded x.size x.at_.address)) t := by
  cases run with
  | word size =>
    have value (v : Word) : x.value v = rotateLoaded x.at_.address v := by
      rw [rotateLoaded_eq, LoadForm.value, size]
    rw [value]
    rw [size] at h ⊢
    exact loadWord_readable dest h
  | narrow ext size dest value =>
    rw [value]
    exact loadNarrow_readable (aligned.resolve_left Bool.false_ne_true) h
  | thumb ext rd dest base user value =>
    have aligned := aligned.resolve_left Bool.false_ne_true
    rw [value aligned, base, dest]
    rw [user] at h
    exact thumbLoad_readable aligned h x.rn

/-- Settles O21: each load is one of three operations, and each of them is a MemRead and the writes of its registers. -/
theorem loadResult : Obligations.LoadResult := by
  unfold Obligations.LoadResult
  intro i x s form cond dest aligned
  have run := exec_loadRun form cond
  exact ⟨run.completes dest aligned, fun align route hung =>
    run.stops dest aligned (memRead_hangs align route hung)⟩

/-! ## Stores -/

/-- What a store of one register runs once its condition holds. -/
inductive StoreRun (s : State) (x : StoreForm) : Bool → Result → Prop
  | one (arm : Bool) (size : arm = true ∧ x.size = .word ∨ x.size = .byte) :
      StoreRun s x arm (storeOne x.force x.size x.rn x.rd x.at_ s)
  | half (size : x.size = .half) (user : x.force = false) : StoreRun s x false (storeHalf x.rn x.rd x.at_ s)
  | thumb (rd : LoReg) (src : x.rd = rd.reg) (base : x.at_.newBase = none) (user : x.force = false) :
      StoreRun s x false (thumbStore x.size x.at_.address rd s)

theorem store2_some {c : Cond} {force : Bool} {size : Size} {x : Indexing} {u : Bool} {rn rd : Reg} {rm : Option Reg}
    {offset : Word} {y : StoreForm} (h : s.store2 c force size x u rn rd rm offset = some y) :
    transferLegal (writesBack x) rn rd rm (decide (size ≠ .word) || force) = true ∧
      y = ⟨c, force, size, rd, rn, addressMode2 x u (s.reg rn) offset⟩ := by
  unfold State.store2 at h
  split at h
  · exact ⟨‹_›, (Option.some.inj h).symm⟩
  · cases h

theorem store3_some {c : Cond} {p u w : Bool} {rn rd : Reg} {rm : Option Reg} {offset : Word} {y : StoreForm}
    (h : s.store3 c p u w rn rd rm offset = some y) :
    ∃ m, addressMode3 p u w (s.reg rn) offset = some m ∧ transferLegal m.newBase.isSome rn rd rm true = true ∧
      y = ⟨c, false, .half, rd, rn, m⟩ := by
  unfold State.store3 at h
  split at h
  · cases h
  next m hm =>
    split at h
    · exact ⟨m, hm, ‹_›, (Option.some.inj h).symm⟩
    · cases h

/-- A word or a byte of addressing mode 2, immediate offset. The restrictions on R15 are those of its size and of the T forms. -/
theorem StoreRun.mode2Imm {c : Cond} {force noRd15 arm : Bool} {size : Size} {x : Indexing} {u : Bool} {rn rd : Reg}
    {imm : BitVec 12} {y : StoreForm} (hs : arm = true ∧ size = .word ∨ size = .byte)
    (h15 : noRd15 = (decide (size ≠ .word) || force))
    (h : s.store2 c force size x u rn rd none (imm.setWidth 32) = some y) (hc : Cond.holds y.cond s.cpsr = true) :
    StoreRun s y arm (Machine.mode2Imm (storeOne force size) noRd15 c x u rn rd imm s) := by
  obtain ⟨legal, rfl⟩ := store2_some h
  rw [← h15] at legal
  rw [mode2Imm_legal (c := c) hc legal]
  exact .one arm hs

theorem StoreRun.mode2Reg {c : Cond} {force noRd15 arm : Bool} {size : Size} {x : Indexing} {u : Bool} {rn rd rm : Reg}
    {sh : BitVec 5} {k : ShiftKind} {y : StoreForm} (hs : arm = true ∧ size = .word ∨ size = .byte)
    (h15 : noRd15 = (decide (size ≠ .word) || force))
    (h : s.store2 c force size x u rn rd (some rm) (indexOffset sh k rm s) = some y)
    (hc : Cond.holds y.cond s.cpsr = true) :
    StoreRun s y arm (Machine.mode2Reg (storeOne force size) noRd15 c x u rn rd sh k rm s) := by
  obtain ⟨legal, rfl⟩ := store2_some h
  rw [← h15] at legal
  rw [mode2Reg_legal (c := c) hc legal]
  exact .one arm hs

theorem StoreRun.half3Imm {c : Cond} {p u w : Bool} {rn rd : Reg} {imm : BitVec 8} {y : StoreForm}
    (h : s.store3 c p u w rn rd none (imm.setWidth 32) = some y) (hc : Cond.holds y.cond s.cpsr = true) :
    StoreRun s y false (mode3Imm storeHalf c p u w rn rd imm s) := by
  obtain ⟨m, hm, legal, rfl⟩ := store3_some h
  rw [mode3Imm_legal (c := c) hc hm legal]
  exact .half rfl rfl

theorem StoreRun.half3Reg {c : Cond} {p u w : Bool} {rn rd sbz rm : Reg} {y : StoreForm}
    (h : (if sbz = 0 then s.store3 c p u w rn rd (some rm) (s.reg rm) else none) = some y)
    (hc : Cond.holds y.cond s.cpsr = true) : StoreRun s y false (mode3Reg storeHalf c p u w rn rd sbz rm s) := by
  split at h
  next zero =>
    subst zero
    obtain ⟨m, hm, legal, rfl⟩ := store3_some h
    rw [mode3Reg_legal (c := c) hc hm legal]
    exact .half rfl rfl
  · cases h

theorem StoreRun.thumbForm {size : Size} {rd : LoReg} {a : Word} {y : StoreForm} (h : thumbStoreForm size rd a = some y) :
    StoreRun s y false (thumbStore size a rd s) := by
  obtain rfl := Option.some.inj h
  exact .thumb rd rfl rfl rfl

/-- Every store of one register runs one of the three. -/
theorem exec_storeRun {i : Instr} {x : StoreForm} (h : s.storeOf i = some x) (hc : Cond.holds x.cond s.cpsr = true) :
    StoreRun s x (armTransfer i) (exec i s) := by
  unfold State.storeOf at h
  split at h
  · exact .mode2Imm (force := true) (size := .word) (.inl ⟨rfl, rfl⟩) rfl h hc
  · exact .mode2Reg (force := true) (size := .word) (.inl ⟨rfl, rfl⟩) rfl h hc
  · exact .mode2Imm (force := true) (size := .byte) (.inr rfl) rfl h hc
  · exact .mode2Reg (force := true) (size := .byte) (.inr rfl) rfl h hc
  · exact .mode2Imm (force := false) (size := .word) (.inl ⟨rfl, rfl⟩) rfl h hc
  · exact .mode2Reg (force := false) (size := .word) (.inl ⟨rfl, rfl⟩) rfl h hc
  · exact .mode2Imm (force := false) (size := .byte) (.inr rfl) rfl h hc
  · exact .mode2Reg (force := false) (size := .byte) (.inr rfl) rfl h hc
  · exact .half3Imm h hc
  · exact .half3Reg h hc
  · exact .thumbForm (size := .word) h
  · exact .thumbForm (size := .half) h
  · exact .thumbForm (size := .byte) h
  · exact .thumbForm (size := .word) h
  · exact .thumbForm (size := .byte) h
  · exact .thumbForm (size := .half) h
  · exact .thumbForm (size := .word) h
  · cases h

/-- A store that has completed: the base has the new base where the form writes it back, and nothing else outside memory has
changed. -/
def StoreDone (s : State) (rn : Reg) (newBase : Option Word) (t : State) : Prop :=
  t.regs = s.withBase rn newBase ∧ t.cpsr = s.cpsr ∧ WentOn s t ∧ SameSystem s t

theorem storeDone_of_framed (h : Framed s u) (regs : u.regs = s.regs) (rn : Reg) (newBase : Option Word) :
    StoreDone s rn newBase (u.setReg? rn newBase).advance := by
  obtain ⟨cpsr, went, system⟩ := (h.trans (.setReg? u rn newBase)).advance
  exact ⟨h.setReg?_regs regs rn newBase, cpsr, went, system⟩

/-- A store of one register has completed, and every byte of memory is known. -/
def Stored (s : State) (x : StoreForm) (t : State) : Prop :=
  StoreDone s x.rn x.at_.newBase t ∧
    ∀ p, t.byteAt p = s.storedByte x.force x.size x.at_.address (s.storeReg x.rd) p (s.byteAt p)

theorem storeOne_writable {x : StoreForm} (hs : s.memoryInForm) (h : s.writable x.force false x.size x.at_.address) :
    ∃ t, storeOne x.force x.size x.rn x.rd x.at_ s = .next t ∧ Stored s x t := by
  obtain ⟨u, write, only, bytes⟩ := memWrite_ok (seq := false) (v := s.storeReg x.rd) hs h
  refine ⟨_, ?_, storeDone_of_framed only.framed only.regs x.rn x.at_.newBase, fun p => ?_⟩
  · simp only [storeOne, write, Access.finish]
  · rw [State.advance_byteAt, State.setReg?_byteAt, bytes]

theorem loReg_ne_pc (r : LoReg) : r.reg ≠ 15 := by revert r; decide

theorem storeReg_loReg (r : LoReg) : s.storeReg r.reg = s.reg r.reg := by
  rw [State.storeReg, if_neg (loReg_ne_pc r), State.reg_bank (loReg_ne_pc r)]

theorem thumbStore_writable {x : StoreForm} {rd : LoReg} (src : x.rd = rd.reg) (base : x.at_.newBase = none)
    (user : x.force = false) (aligned : misaligned x.size x.at_.address = false) (hs : s.memoryInForm)
    (h : s.writable x.force false x.size x.at_.address) :
    ∃ t, thumbStore x.size x.at_.address rd s = .next t ∧ Stored s x t := by
  obtain ⟨t, run, done⟩ := storeOne_writable hs h
  refine ⟨t, ?_, done⟩
  rw [← run]
  simp only [thumbStore, storeOne, aligned, src, base, user, storeReg_loReg, Bool.false_and, Bool.false_eq_true, if_false]
  rfl

theorem StoreRun.completes {x : StoreForm} {arm : Bool} {r : Result} (run : StoreRun s x arm r) (hs : s.memoryInForm)
    (h : s.writable x.force false x.size x.at_.address)
    (aligned : arm = true ∨ misaligned x.size x.at_.address = false) : ∃ t, r = .next t ∧ Stored s x t := by
  cases run with
  | one arm size => exact storeOne_writable hs h
  | half size user =>
    obtain ⟨t, run, done⟩ := storeOne_writable hs h
    have aligned := aligned.resolve_left Bool.false_ne_true
    rw [size] at aligned run
    rw [user] at run
    refine ⟨t, ?_, done⟩
    rw [storeHalf, aligned, Bool.and_false, refuseIf_false, run]
  | thumb rd src base user =>
    exact thumbStore_writable src base user (aligned.resolve_left Bool.false_ne_true) hs h

/-- Settles O23: each store is a MemWrite and the write-back of its base. -/
theorem storeResult : Obligations.StoreResult := by
  unfold Obligations.StoreResult
  intro i x s form cond hs writable aligned
  obtain ⟨t, next, ⟨regs, cpsr, went, system⟩, bytes⟩ := (exec_storeRun form cond).completes hs writable aligned
  exact ⟨t, next, regs, cpsr, went, system, bytes⟩

end Sys2Proof.Machine
end

section
/-! SUPPORT. Proofs: loads and stores of one register and swaps that abort (R56, R217, R231, R232, R318), and the swaps that
complete. -/

namespace Sys2Proof.Machine

variable {s t u : State}

/-! ## Loads and stores of one register -/

/-- An access that aborts ends its instruction with the Data Abort and nothing else. -/
theorem finish_abort {α : Type} {x : Access α} (k : α → State → Result) (h : x = .abort u) (only : MemoryOnly s u)
    (memory : SameMemory s u) : ∃ t, x.finish k = .next t ∧ AbortedFrom s t := by
  subst h
  exact ⟨_, rfl, .of_memoryOnly only memory⟩

theorem finish_memRead_aborts {force : Bool} {size : Size} {a : Word} (k : Word → State → Result)
    (h : s.readAborts force size a) : ∃ t, (memRead force size a s).finish k = .next t ∧ AbortedFrom s t := by
  obtain ⟨u, read, only⟩ := memRead_aborts h
  exact finish_abort k read only.toMemoryOnly only.memory

theorem finish_memWrite_aborts {force swap seq : Bool} {size : Size} {a v : Word} (k : Unit → State → Result)
    (h : s.writeAborts force swap size a) :
    ∃ t, (memWrite force swap seq size a v s).finish k = .next t ∧ AbortedFrom s t := by
  obtain ⟨u, write, only, memory⟩ := memWrite_aborts h
  exact finish_abort k write only memory

/-- An access that is checked or is aligned is not one of those that R57 leaves open. -/
theorem not_unaligned {size : Size} {a : Word} (h : s.alignFault size a = true ∨ misaligned size a = false) :
    (!s.cp15.a && misaligned size a) = false := by
  rcases h with fault | aligned
  · obtain ⟨checked, -⟩ := Bool.and_eq_true_iff.mp fault
    rw [checked]
    rfl
  · rw [aligned, Bool.and_false]

theorem LoadRun.aborts {x : LoadForm} {arm : Bool} {r : Result} (run : LoadRun s x arm r)
    (pc : x.rd = 15 → misaligned x.size x.at_.address = false ∨ s.cp15.a = true)
    (aligned : s.alignFault x.size x.at_.address = true ∨ arm = true ∨ misaligned x.size x.at_.address = false)
    (h : s.readAborts x.force x.size x.at_.address) : ∃ t, r = .next t ∧ AbortedFrom s t := by
  cases run with
  | word size =>
    rw [size] at h pc
    have guard : (decide (x.rd = 15) && !s.cp15.a && misaligned .word x.at_.address) = false := by
      by_cases dest : x.rd = 15
      · rcases pc dest with aligned | checked
        · rw [aligned, Bool.and_false]
        · simp [checked]
      · rw [decide_eq_false dest, Bool.false_and, Bool.false_and]
    rw [loadWord, guard, refuseIf_false]
    exact finish_memRead_aborts _ h
  | narrow ext size dest value =>
    rw [loadNarrow, not_unaligned (aligned.imp_right (·.resolve_left Bool.false_ne_true)), refuseIf_false]
    exact finish_memRead_aborts _ h
  | thumb ext rd dest base user value =>
    rw [user] at h
    exact finish_memRead_aborts _ h

theorem StoreRun.aborts {x : StoreForm} {arm : Bool} {r : Result} (run : StoreRun s x arm r)
    (aligned : s.alignFault x.size x.at_.address = true ∨ arm = true ∨ misaligned x.size x.at_.address = false)
    (h : s.writeAborts x.force false x.size x.at_.address) : ∃ t, r = .next t ∧ AbortedFrom s t := by
  cases run with
  | one arm size => exact finish_memWrite_aborts _ h
  | half size user =>
    have aligned := not_unaligned (aligned.imp_right (·.resolve_left Bool.false_ne_true))
    rw [size] at aligned h
    rw [user] at h
    rw [storeHalf, aligned, refuseIf_false]
    exact finish_memWrite_aborts _ h
  | thumb rd src base user =>
    have aligned := not_unaligned (aligned.imp_right (·.resolve_left Bool.false_ne_true))
    rw [user] at h
    rw [thumbStore, Bool.and_comm, aligned, if_neg Bool.false_ne_true]
    exact finish_memWrite_aborts _ h

/-! ## Swaps (R231, R232) -/

/-- The value that a swap puts into Rd: a word rotated by its address (R220). -/
def swapValue : Size → Word → Word → Word
  | .word, a, w => rotateLoaded a w
  | .half, _, w => w
  | .byte, _, w => w

/-- A swap whose registers no rule excludes. -/
theorem swap_legal {size : Size} {c : Cond} {rn rd rm : Reg} (hc : Cond.holds c s.cpsr = true) (rn15 : rn ≠ 15)
    (rd15 : rd ≠ 15) (rm15 : rm ≠ 15) (rnm : rn ≠ rm) (rnd : rn ≠ rd) :
    swap size c rn rd 0 rm s =
      (memRead false size (s.reg rn) s).finish fun w s1 =>
        (memWrite false true false size (s.reg rn) (s.reg rm) s1).finish fun _ s2 =>
          .next (s2.setReg rd (swapValue size (s.reg rn) w)).advance := by
  have noPc : usesR15 [rn, rd, rm] = false := by
    simp only [usesR15, List.contains_cons, List.contains_nil, Bool.or_false, Bool.or_eq_false_iff, beq_eq_false_iff_ne]
    exact ⟨rn15.symm, rd15.symm, rm15.symm⟩
  simp only [swap, onCond_pass _ hc, noPc, rnm, rnd, ne_eq, not_true_eq_false, decide_false, or_self, refuseIf_false]
  cases size <;> rfl

theorem swap_aborts {size : Size} {c : Cond} {rn rd rm : Reg} (hc : Cond.holds c s.cpsr = true) (rn15 : rn ≠ 15)
    (rd15 : rd ≠ 15) (rm15 : rm ≠ 15) (rnm : rn ≠ rm) (rnd : rn ≠ rd)
    (h : s.readAborts false size (s.reg rn) ∨ s.writeAborts false true size (s.reg rn)) :
    ∃ t, swap size c rn rd 0 rm s = .next t ∧ AbortedFrom s t := by
  rw [swap_legal hc rn15 rd15 rm15 rnm rnd]
  by_cases read : s.readAborts false size (s.reg rn)
  · exact finish_memRead_aborts _ read
  · have write := h.resolve_left read
    have unwatched := write.1
    have align : s.alignFault size (s.reg rn) = false := by
      by_contra fault
      exact read ⟨unwatched, .inl (by simpa using fault)⟩
    obtain ⟨mapped, -⟩ := write.2.resolve_left (by simp [align])
    have answers : s.readFails false size (alignTo size (s.reg rn)) = false := by
      by_contra fails
      exact read ⟨unwatched, .inr ⟨mapped, by simpa using fails⟩⟩
    obtain ⟨u, hu, only⟩ := memRead_readable ⟨unwatched, align, mapped, answers⟩
    obtain ⟨v, hv, only', memory⟩ := memWrite_aborts (seq := false) (v := s.reg rm) (only.toMemoryOnly.writeAborts write)
    simp only [hu, Access.finish, hv]
    exact ⟨_, rfl, .of_memoryOnly (only.toMemoryOnly.trans only') (only.memory.trans memory)⟩

theorem swap_completes {size : Size} {c : Cond} {rn rd rm : Reg} (hc : Cond.holds c s.cpsr = true) (rn15 : rn ≠ 15)
    (rd15 : rd ≠ 15) (rm15 : rm ≠ 15) (rnm : rn ≠ rm) (rnd : rn ≠ rd) (hs : s.memoryInForm)
    (readable : s.readable false size (s.reg rn)) (writable : s.writable false true size (s.reg rn)) :
    ∃ t, swap size c rn rd 0 rm s = .next t ∧
      t.regs = s.withReg rd (swapValue size (s.reg rn) (s.loaded size (s.reg rn))) ∧ t.cpsr = s.cpsr ∧ WentOn s t ∧
      SameSystem s t ∧ ∀ p, t.byteAt p = s.storedByte false size (s.reg rn) (s.reg rm) p (s.byteAt p) := by
  obtain ⟨u, hu, read⟩ := memRead_readable readable
  obtain ⟨v, hv, wrote, bytes⟩ :=
    memWrite_ok (seq := false) (v := s.reg rm) (read.inForm hs) (read.toMemoryOnly.writable writable)
  have only := read.toMemoryOnly.trans wrote
  rw [swap_legal hc rn15 rd15 rm15 rnm rnd]
  simp only [hu, Access.finish, hv]
  obtain ⟨cpsr, went, system⟩ := (only.framed.trans (.setReg v rd _)).advance
  refine ⟨_, rfl, ?_, cpsr, went, system, fun p => ?_⟩
  · simp [State.withReg, only.regs, only.framed.mode]
  · rw [State.advance_byteAt, show State.byteAt (v.setReg rd _) p = v.byteAt p by cases p <;> rfl, bytes,
      read.toMemoryOnly.storedByte, read.memory]

/-- Settles O27: a swap is a MemRead, a MemWrite and the write of Rd. -/
theorem swapResult : Obligations.SwapResult := by
  unfold Obligations.SwapResult
  intro c rn rd rm s cond rn15 rd15 rm15 rnm rnd hs form member readable writable
  simp only [List.mem_cons, List.not_mem_nil, or_false] at member
  rcases member with rfl | rfl
  · dsimp only at *
    rw [← rotateLoaded_eq]
    exact swap_completes (size := .word) cond rn15 rd15 rm15 rnm rnd hs readable writable
  · exact swap_completes (size := .byte) cond rn15 rd15 rm15 rnm rnd hs readable writable

end Sys2Proof.Machine
end

section
/-! SUPPORT. Proofs: sequences of words (R235, R236) and doublewords (R229, R230). -/

namespace Sys2Proof.Machine

variable {s t u : State}

/-! ## Words read and written in order, with no other agent between them -/

theorem MemoryOnly.betweenAccesses_eq (h : MemoryOnly s t) (quiet : s.between = []) : t.betweenAccesses = t :=
  State.betweenAccesses_nil (h.sameSystem.between.trans quiet)

theorem MemoryOnly.next_eq (h : MemoryOnly s t) (quiet : s.between = []) (last : Bool) :
    (if last then t else t.betweenAccesses) = t := by
  rw [h.betweenAccesses_eq quiet, ite_self]

theorem readWords_readable {l : List Word} (quiet : s.between = []) (h : ∀ a ∈ l, s.readable false .word a) :
    ∃ t, readWords l s = .ok (l.map (s.loaded .word)) t ∧ ReadOnly s t := by
  induction l generalizing s with
  | nil => exact ⟨s, rfl, .refl s⟩
  | cons a as ih =>
    obtain ⟨u, read, only⟩ := memRead_readable (h a List.mem_cons_self)
    obtain ⟨t, rest, only'⟩ := ih (only.sameSystem.between.trans quiet)
      fun b hb => only.readable (h b (List.mem_cons_of_mem a hb))
    have same : as.map (u.loaded .word) = as.map (s.loaded .word) := List.map_congr_left fun b _ => only.loaded .word b
    refine ⟨t, ?_, only.trans only'⟩
    simp only [readWords, read, Access.bind, only.toMemoryOnly.next_eq quiet, rest, same, List.map_cons]

/-- Reads up to the one that takes the Data Abort (R236). -/
theorem readWords_aborts {pre post : List Word} {a : Word} (quiet : s.between = [])
    (h : ∀ b ∈ pre, s.readable false .word b) (abort : s.readAborts false .word a) :
    ∃ t, readWords (pre ++ a :: post) s = .abort t ∧ ReadOnly s t := by
  induction pre generalizing s with
  | nil =>
    obtain ⟨u, read, only⟩ := memRead_aborts abort
    exact ⟨u, by simp only [List.nil_append, readWords, read, Access.bind], only⟩
  | cons b bs ih =>
    obtain ⟨u, read, only⟩ := memRead_readable (h b List.mem_cons_self)
    obtain ⟨t, rest, only'⟩ := ih (only.sameSystem.between.trans quiet)
      (fun c hc => only.readable (h c (List.mem_cons_of_mem b hc))) (only.readAborts abort)
    refine ⟨t, ?_, only.trans only'⟩
    simp only [List.cons_append, readWords, read, Access.bind, only.toMemoryOnly.next_eq quiet, rest]

/-- Bytes after word stores, from a state on whose memory a store has been made. -/
theorem storedWords_cons (h : MemoryOnly s t) (w : Word × Word) (l : List (Word × Word)) (p : Place)
    (byte : t.byteAt p = s.storedByte false .word w.1 w.2 p (s.byteAt p)) :
    t.storedWords l p = s.storedWords (w :: l) p := by
  unfold State.storedWords
  simp only [h.storedByte, byte, List.foldl_cons]

theorem writeWords_writable {l : List (Word × Word)} (hs : s.memoryInForm) (quiet : s.between = [])
    (h : ∀ w ∈ l, s.writable false false .word w.1) (seq : Bool) :
    ∃ t, writeWords seq l s = .ok () t ∧ MemoryOnly s t ∧ ∀ p, t.byteAt p = s.storedWords l p := by
  induction l generalizing s seq with
  | nil => exact ⟨s, rfl, .refl s, fun _ => rfl⟩
  | cons w ws ih =>
    obtain ⟨u, write, only, bytes⟩ := memWrite_ok (seq := seq) (v := w.2) hs (h w List.mem_cons_self)
    obtain ⟨t, rest, only', bytes'⟩ := ih (only.inForm hs) (only.sameSystem.between.trans quiet)
      (fun b hb => only.writable (h b (List.mem_cons_of_mem w hb))) true
    refine ⟨t, ?_, only.trans only', fun p => (bytes' p).trans (storedWords_cons only w ws p (bytes p))⟩
    simp only [writeWords, write, only.next_eq quiet, rest]

/-- Writes up to the one that takes the Data Abort; the later words may have been written (R236 (4)). -/
theorem writeWords_aborts {pre post : List (Word × Word)} {w : Word × Word} (hs : s.memoryInForm) (quiet : s.between = [])
    (h : ∀ b ∈ pre, s.writable false false .word b.1) (abort : s.writeAborts false false .word w.1) (seq : Bool) :
    ∃ u, writeWords seq (pre ++ w :: post) s = .abort (maybeStore post u) ∧ MemoryOnly s u ∧
      ∀ p, u.byteAt p = s.storedWords pre p := by
  induction pre generalizing s seq with
  | nil =>
    obtain ⟨u, write, only, memory⟩ := memWrite_aborts (seq := seq) (v := w.2) abort
    exact ⟨u, by simp only [List.nil_append, writeWords, write], only, memory⟩
  | cons b bs ih =>
    obtain ⟨t, write, only, bytes⟩ := memWrite_ok (seq := seq) (v := b.2) hs (h b List.mem_cons_self)
    obtain ⟨u, rest, only', bytes'⟩ := ih (only.inForm hs) (only.sameSystem.between.trans quiet)
      (fun c hc => only.writable (h c (List.mem_cons_of_mem b hc))) (only.writeAborts abort) true
    refine ⟨u, ?_, only.trans only', fun p => (bytes' p).trans (storedWords_cons only b bs p (bytes p))⟩
    simp only [List.cons_append, writeWords, write, only.next_eq quiet, rest]

/-! ## The registers of an aborted load -/

/-- The registers that an aborted load leaves open are those of its list, but for the base and the PC (R217 (3), R236 (3)). -/
theorem freeRegs_framed (m : Mode) (keep : Option (Fin 30)) (l : List Reg) (s : State) :
    Framed s (freeRegs m keep l s) ∧ SameMemory s (freeRegs m keep l s) ∧
      ∀ k : Fin 30, (∀ r ∈ l, r ≠ 15 → physIndex m r = k → some k = keep) → (freeRegs m keep l s).regs[k] = s.regs[k] := by
  induction l generalizing s with
  | nil => exact ⟨.refl s, fun _ => rfl, fun _ _ => rfl⟩
  | cons r rs ih =>
    have later {k : Fin 30} (h : ∀ x ∈ r :: rs, x ≠ 15 → physIndex m x = k → some k = keep) :
        ∀ x ∈ rs, x ≠ 15 → physIndex m x = k → some k = keep := fun x hx => h x (List.mem_cons_of_mem r hx)
    unfold freeRegs
    split
    · obtain ⟨framed, memory, regs⟩ := ih s
      exact ⟨framed, memory, fun k h => regs k (later h)⟩
    next free =>
      rw [not_or] at free
      obtain ⟨framed, memory, regs⟩ := ih (s.takeWord.2.setBankReg m r s.takeWord.1)
      refine ⟨(Framed.takeWord s).trans ((Framed.setBankReg _ m r _).trans framed), memory, fun k h => ?_⟩
      have other : physIndex m r ≠ k := fun e => free.2 (by rw [e]; exact h r List.mem_cons_self free.1 e)
      refine (regs k (later h)).trans ?_
      simp only [State.setBankReg_regs, State.takeWord_regs, Fin.getElem_fin]
      exact Vector.getElem_set_ne _ _ fun e => other (Fin.ext e)

/-- A Data Abort writes no general register but R14 of Abort mode. -/
theorem dataAbort_regs (u : State) {k : Fin 30} (h : k ≠ physIndex .abt 14) :
    (u.raise .dataAbort).lateCancel.regs[k] = u.regs[k] := by
  simp only [State.lateCancel_regs, State.raise_regs, Fin.getElem_fin]
  exact Vector.getElem_set_ne _ _ fun e => h (Fin.ext e.symm)

/-- An aborted load: the Data Abort from a state in which its registers are open. -/
theorem abortedLoad (h : ReadOnly s u) (m : Mode) (keep : Option (Fin 30)) (l : List Reg) :
    ∃ t, raiseDataAbort (freeRegs m keep l u) = .next t ∧ AbortTaken s t ∧ SameMemory s t ∧
      ∀ k : Fin 30, k ≠ physIndex .abt 14 → (∀ r ∈ l, r ≠ 15 → physIndex m r = k → some k = keep) →
        t.regs[k] = s.regs[k] := by
  obtain ⟨framed, memory, regs⟩ := freeRegs_framed m keep l u
  refine ⟨_, rfl, .of_framed (h.framed.trans framed), (h.memory.trans memory).trans (byteAt_dataAbort _), fun k hk hl => ?_⟩
  rw [dataAbort_regs _ hk, regs k hl, h.regs]

/-! ## Doublewords -/

/-- The load and the store of a doubleword, with the offset register and the offset: the immediate form and the register form. -/
def doubleForms (s : State) (c : Cond) (p u w : Bool) (rn rd rm : Reg) (imm : BitVec 8) :
    List (Instr × Instr × Option Reg × Word) :=
  [(.ldrdImm c p u w rn rd imm, .strdImm c p u w rn rd imm, none, imm.setWidth 32),
    (.ldrdReg c p u w rn rd 0 rm, .strdReg c p u w rn rd 0 rm, some rm, s.reg rm)]

theorem exec_doubleForms {c : Cond} {p u w : Bool} {rn rd rm : Reg} {imm : BitVec 8} {m : Addressed}
    {form : Instr × Instr × Option Reg × Word} (member : form ∈ doubleForms s c p u w rn rd rm imm)
    (hc : Cond.holds c s.cpsr = true) (hm : addressMode3 p u w (s.reg rn) form.2.2.2 = some m)
    (legal : transferLegal m.newBase.isSome rn rd form.2.2.1 true = true) :
    (form.2.2.1 ≠ some rd → form.2.2.1 ≠ some (rd + 1) → exec form.1 s = loadDouble rn rd m s) ∧
      exec form.2.1 s = storeDouble rn rd m s := by
  simp only [doubleForms, List.mem_cons, List.not_mem_nil, or_false] at member
  rcases member with rfl | rfl
  · exact ⟨fun _ _ => mode3Imm_legal (op := loadDouble) hc hm legal, mode3Imm_legal (op := storeDouble) hc hm legal⟩
  · refine ⟨fun low high => ?_, mode3Reg_legal (op := storeDouble) hc hm legal⟩
    refine (mode3Reg_legal (op := loadDoubleReg rm) hc hm legal).trans ?_
    have clash : ¬(rm = rd ∨ rm = rd + 1) := by
      rintro (rfl | rfl)
      · exact low rfl
      · exact high rfl
    rw [loadDoubleReg, decide_eq_false clash, refuseIf_false]

theorem doubleMisaligned_eq (a : Word) : doubleMisaligned a = decide (a.toNat % 8 ≠ 0) := by
  have low : (a.extractLsb' 0 3).toNat = a.toNat % 8 := by simp [BitVec.extractLsb'_toNat]
  rw [doubleMisaligned, decide_eq_decide, ← low]
  exact not_congr (BitVec.toNat_eq.trans Iff.rfl)

/-- The restrictions on Rd of a doubleword, where they are met (R229, R230). -/
theorem doubleGuard_legal {wb : Option Word} {rn rd : Reg} {a : Word} {abort ok : Result} (even : rd.toNat % 2 = 0)
    (rd14 : rd ≠ 14) (clash : wb ≠ none → rn ≠ rd + 1) :
    doubleGuard wb.isSome rn rd a s abort ok =
      if a.toNat % 8 = 0 then ok else if s.cp15.a then abort else .refused .unaligned := by
  have odd : rd.getLsbD 0 = false := by
    rw [BitVec.getLsbD, Nat.testBit_zero, even]
    rfl
  have base : (wb.isSome && decide (rn = rd + 1)) = false := by
    cases wb with
    | none => rfl
    | some b => exact decide_eq_false (clash nofun)
  rw [doubleGuard, odd, base, doubleMisaligned_eq, decide_eq_false rd14]
  simp only [refuseIf_false]
  by_cases h : a.toNat % 8 = 0 <;> simp [h]

theorem loadDouble_aligned {rn rd : Reg} {m : Addressed} (even : rd.toNat % 2 = 0) (rd14 : rd ≠ 14)
    (clash : m.newBase ≠ none → rn ≠ rd + 1) (aligned : m.address.toNat % 8 = 0) {lo hi : Word}
    (h : readWords [m.address, m.address + 4] s = .ok [lo, hi] u) :
    loadDouble rn rd m s = .next (((u.setReg rd lo).setReg (rd + 1) hi).setReg? rn m.newBase).advance := by
  simp only [loadDouble, doubleGuard_legal even rd14 clash, aligned, if_true, h]

/-- The general registers after a doubleword load: Rd and the next one, then the base if it is written back. -/
def State.withDouble (s : State) (rd : Reg) (lo hi : Word) (rn : Reg) (newBase : Option Word) : Vector Word 30 :=
  match newBase with
  | none => s.withRegs2 rd lo (rd + 1) hi
  | some b => (s.withRegs2 rd lo (rd + 1) hi).set (physIndex s.mode rn) b

theorem withDouble_regs {rn rd : Reg} {lo hi : Word} {newBase : Option Word} (regs : u.regs = s.regs)
    (mode : u.mode = s.mode) :
    (((u.setReg rd lo).setReg (rd + 1) hi).setReg? rn newBase).advance.regs = s.withDouble rd lo hi rn newBase := by
  cases newBase <;> simp [State.setReg?, State.withDouble, State.withRegs2, regs, mode]

theorem loadDouble_readable {rn rd : Reg} {m : Addressed} (even : rd.toNat % 2 = 0) (rd14 : rd ≠ 14)
    (clash : m.newBase ≠ none → rn ≠ rd + 1) (aligned : m.address.toNat % 8 = 0) (quiet : s.between = [])
    (low : s.readable false .word m.address) (high : s.readable false .word (m.address + 4)) :
    ∃ t, loadDouble rn rd m s = .next t ∧
      t.regs = s.withDouble rd (s.loaded .word m.address) (s.loaded .word (m.address + 4)) rn m.newBase ∧
      t.cpsr = s.cpsr ∧ WentOn s t ∧ SameSystem s t ∧ SameMemory s t := by
  obtain ⟨u, read, only⟩ := readWords_readable (l := [m.address, m.address + 4]) quiet
    (List.forall_mem_cons.mpr ⟨low, List.forall_mem_singleton.mpr high⟩)
  have framed := ((only.framed.trans (.setReg u rd (s.loaded .word m.address))).trans
    (.setReg _ (rd + 1) (s.loaded .word (m.address + 4)))).trans (.setReg? _ rn m.newBase)
  obtain ⟨cpsr, went, system⟩ := framed.advance
  exact ⟨_, loadDouble_aligned even rd14 clash aligned read, withDouble_regs only.regs only.framed.mode, cpsr, went, system,
    SameMemory.setReg? (t := (u.setReg rd _).setReg (rd + 1) _) only.memory rn m.newBase⟩

/-- What other agents do between the two reads reaches the second one (R60). -/
theorem loadDouble_between {rn rd : Reg} {m : Addressed} {lo : Word} {s1 : State} (even : rd.toNat % 2 = 0) (rd14 : rd ≠ 14)
    (clash : m.newBase ≠ none → rn ≠ rd + 1) (aligned : m.address.toNat % 8 = 0)
    (low : s.readable false .word m.address) (read : memRead false .word m.address s = .ok lo s1)
    (high : s1.betweenAccesses.readable false .word (m.address + 4)) :
    ∃ t, loadDouble rn rd m s = .next t ∧
      t.regs = s.withDouble rd (s.loaded .word m.address) (s1.betweenAccesses.loaded .word (m.address + 4)) rn m.newBase ∧
      t.cpsr = s.cpsr ∧ WentOn s t ∧ SameMemory s1.betweenAccesses t := by
  obtain ⟨s1', read', only⟩ := memRead_readable low
  obtain ⟨rfl, rfl⟩ : s.loaded .word m.address = lo ∧ s1' = s1 := by simpa using read'.symm.trans read
  obtain ⟨u, second, only'⟩ := memRead_readable high
  have batch := MemoryOnly.betweenAccesses s1'
  have regs : u.regs = s.regs := only'.regs.trans (batch.regs.trans only.regs)
  have cpsr : u.cpsr = s.cpsr := only'.cpsr.trans (batch.cpsr.trans only.cpsr)
  have pc : u.pc = s.pc := only'.pc.trans (batch.pc.trans only.pc)
  have fetch : u.fetch = s.fetch := only'.fetch.trans (batch.fetch.trans only.fetch)
  have mode : u.mode = s.mode := by unfold State.mode; rw [cpsr]
  have nextPc : u.nextPc = s.nextPc := by unfold State.nextPc State.len State.thumb; rw [pc, cpsr]
  have words : readWords [m.address, m.address + 4] s =
      .ok [s.loaded .word m.address, s1'.betweenAccesses.loaded .word (m.address + 4)] u := by
    simp only [readWords, read, Access.bind, List.isEmpty_cons, List.isEmpty_nil, Bool.false_eq_true, if_false, if_true, second]
  have ends := Framed.advance (((Framed.setReg u rd (s.loaded .word m.address)).trans
    (.setReg _ (rd + 1) (s1'.betweenAccesses.loaded .word (m.address + 4)))).trans (.setReg? _ rn m.newBase))
  obtain ⟨cpsr', ⟨pc', fetch'⟩, -⟩ := ends
  exact ⟨_, loadDouble_aligned even rd14 clash aligned words, withDouble_regs regs mode, cpsr'.trans cpsr,
    ⟨pc'.trans nextPc, fetch'.trans fetch⟩,
    SameMemory.setReg? (t := (u.setReg rd _).setReg (rd + 1) _) only'.memory rn m.newBase⟩

theorem storeDouble_writable {rn rd : Reg} {m : Addressed} (even : rd.toNat % 2 = 0) (rd14 : rd ≠ 14)
    (clash : m.newBase ≠ none → rn ≠ rd + 1) (aligned : m.address.toNat % 8 = 0) (hs : s.memoryInForm)
    (quiet : s.between = []) (low : s.writable false false .word m.address)
    (high : s.writable false false .word (m.address + 4)) :
    ∃ t, storeDouble rn rd m s = .next t ∧ StoreDone s rn m.newBase t ∧
      ∀ q, t.byteAt q = s.storedWords [(m.address, s.reg rd), (m.address + 4, s.reg (rd + 1))] q := by
  obtain ⟨u, write, only, bytes⟩ := memWrite_ok (seq := false) (v := s.reg rd) hs low
  obtain ⟨v, write', only', bytes'⟩ :=
    memWrite_ok (seq := true) (v := s.reg (rd + 1)) (only.inForm hs) (only.writable high)
  have both := only.trans only'
  refine ⟨_, ?_, storeDone_of_framed both.framed both.regs rn m.newBase, fun q => ?_⟩
  · simp only [storeDouble, doubleGuard_legal even rd14 clash, aligned, if_true, write, only.betweenAccesses_eq quiet, write']
  · rw [State.advance_byteAt, State.setReg?_byteAt, bytes', only.storedByte, bytes]
    rfl

/-- Settles O26: a doubleword is two word accesses in ascending order. -/
theorem doublewordResult : Obligations.DoublewordResult := by
  unfold Obligations.DoublewordResult
  intro c p u w rn rd rm imm m s cond even rd14 aligned clash loaded form member mode legal
  have run := exec_doubleForms member cond mode legal
  refine ⟨fun rmLow rmHigh low => ⟨fun quiet high => ?_, fun lo s1 read high => ?_⟩, fun hs quiet low high => ?_⟩
  · rw [run.1 rmLow rmHigh]
    exact loadDouble_readable even rd14 clash aligned quiet low high
  · rw [run.1 rmLow rmHigh]
    exact loadDouble_between even rd14 clash aligned low read high
  · rw [run.2]
    obtain ⟨t, next, ⟨regs, cpsr, went, system⟩, bytes⟩ := storeDouble_writable even rd14 clash aligned hs quiet low high
    exact ⟨t, next, regs, cpsr, went, system, bytes⟩

end Sys2Proof.Machine
end

section
/-! SUPPORT. Proofs: aborted doublewords, and what every aborted transfer leaves as it was (R217, R229, R230, R318). -/

namespace Sys2Proof.Machine

variable {s t u : State}

/-! ## LDRD -/

/-- What keeps a doubleword from being read: an alignment fault, or an error at one of its words. -/
def DoubleReadAborts (s : State) (a : Word) : Prop :=
  s.cp15.a = true ∧ a.toNat % 8 ≠ 0 ∨ a.toNat % 8 = 0 ∧ (s.readAborts false .word a ∨
    s.readable false .word a ∧ s.readAborts false .word (a + 4))

theorem readWords_double_aborts {a : Word} (quiet : s.between = [])
    (h : s.readAborts false .word a ∨ s.readable false .word a ∧ s.readAborts false .word (a + 4)) :
    ∃ t, readWords [a, a + 4] s = .abort t ∧ ReadOnly s t := by
  rcases h with first | ⟨ok, second⟩
  · exact readWords_aborts (pre := []) quiet (by simp) first
  · exact readWords_aborts (pre := [a]) (post := []) quiet (List.forall_mem_singleton.mpr ok) second

theorem loadDouble_aborts {rn rd : Reg} {m : Addressed} (even : rd.toNat % 2 = 0) (rd14 : rd ≠ 14)
    (clash : m.newBase ≠ none → rn ≠ rd + 1) (quiet : s.between = []) (h : DoubleReadAborts s m.address) :
    ∃ u, loadDouble rn rd m s = raiseDataAbort (freeRegs s.mode (s.basePlace rn) [rd, rd + 1] u) ∧ ReadOnly s u := by
  rcases h with ⟨checked, unaligned⟩ | ⟨aligned, words⟩
  · exact ⟨s, by simp only [loadDouble, doubleGuard_legal even rd14 clash, unaligned, checked, if_false, if_true], .refl s⟩
  · obtain ⟨u, read, only⟩ := readWords_double_aborts quiet words
    exact ⟨u, by simp only [loadDouble, doubleGuard_legal even rd14 clash, aligned, if_true, read], only⟩

/-! ## STRD -/

/-- An aborted store of the two words at `a` and `a + 4`: a place outside both holds what it did. -/
def DoubleAborted (s : State) (a : Word) (t : State) : Prop :=
  AbortedClean s t ∧ ∀ q, s.laneAt .word a q = none ∧ s.laneAt .word (a + 4) q = none → t.byteAt q = s.byteAt q

/-- A store writes nothing at a place outside its lanes. -/
theorem storedByte_outside {force : Bool} {size : Size} {a v : Word} {p : Place} (h : s.laneAt size a p = none)
    (old : Byte) : s.storedByte force size a v p old = old := by
  unfold State.storedByte
  rw [h]

theorem doubleAborted_of_framed {a : Word} (h : Framed s u) (regs : u.regs = s.regs)
    (bytes : ∀ q, s.laneAt .word a q = none ∧ s.laneAt .word (a + 4) q = none → u.byteAt q = s.byteAt q) :
    DoubleAborted s a (u.raise .dataAbort).lateCancel :=
  ⟨.of_framed h regs, fun q outside => (byteAt_dataAbort u q).trans (bytes q outside)⟩

theorem Framed.withMemories (h : Framed s t) (k : MemoryOnly s u) : Framed s (t.withMemories u) := by
  have system := h.system
  refine ⟨?_, h.cpsr, h.pc, h.fetch⟩
  constructor
  case itcmErr => exact k.itcmErr
  case dtcmErr => exact k.dtcmErr
  case ahbErr => exact k.ahbErr
  case spsr => exact system.spsr
  case cp15 => exact system.cp15
  case dcc => exact system.dcc
  case dbg => exact system.dbg
  case pins => exact system.pins
  case cp => exact system.cp
  case standby => exact system.standby
  case userXfer => exact system.userXfer
  case fiqServed => exact system.fiqServed
  case irqServed => exact system.irqServed
  case prefixes => exact system.prefixes
  case etm => exact system.etm
  case between => exact system.between
  case env => exact system.env

theorem MemoryOnly.withMemories (h : MemoryOnly s t) (k : MemoryOnly s u) : MemoryOnly s (t.withMemories u) := by
  refine ⟨?_, k.itcmErr, k.dtcmErr, k.ahbErr, k.inForm⟩
  rw [h.core, k.core]
  rfl

theorem byteAt_withMemories (s t : State) : SameMemory t (s.withMemories t) := fun p => by cases p <;> rfl

/-- Late stores after an aborted word, with no watchpoint that can match. -/
theorem maybeStore_framed (only : MemoryOnly s u) (unwatched : s.unwatched) (l : List (Word × Word)) :
    Framed s (maybeStore l u) := by
  obtain ⟨dcc, dbg⟩ := maybeStore_unwatched l (only.unwatched unwatched)
  exact only.framed.trans ((maybeStore_lateStored l u).framed dcc dbg)

theorem maybeStore_regs (l : List (Word × Word)) (u : State) : (maybeStore l u).regs = u.regs := by
  rw [(maybeStore_lateStored l u).core]

/-- The first word aborts; the second may be written. -/
theorem doubleAborted_first {a v : Word} (hs : s.memoryInForm) (unwatched : s.unwatched) (only : MemoryOnly s u)
    (memory : SameMemory s u) :
    ∃ t, raiseDataAbort (maybeStore [(a + 4, v)] u) = .next t ∧ DoubleAborted s a t := by
  refine ⟨_, rfl, doubleAborted_of_framed (maybeStore_framed only unwatched _) ((maybeStore_regs _ u).trans only.regs) ?_⟩
  rintro q ⟨-, outside⟩
  rcases maybeStore_byteAt [(a + 4, v)] (only.inForm hs) q with kept | ⟨w, member, written⟩
  · rw [kept, memory]
  · obtain rfl := List.mem_singleton.mp member
    rw [written, only.storedByte, storedByte_outside outside, memory]

/-- The second word aborts; the first is written, or the buffers have drained as far as its write would have made them. -/
theorem strdAborted_aborted {a v : Word} {s1 s2 : State} (quiet : s.between = [])
    (first : MemoryOnly s s1) (written : ∀ q, s.laneAt .word a q = none → s1.byteAt q = s.byteAt q)
    (second : MemoryOnly s s2) (memory : SameMemory s1 s2) (abort : s.writeAborts false false .word (a + 4)) :
    ∃ t, strdAborted a v s s1 s2 = .next t ∧ DoubleAborted s a t := by
  have forced := MemoryOnly.forcedBy s a
  have undone : MemoryOnly s (s1.withMemories (s.forcedBy a)) := first.withMemories forced
  obtain ⟨s3, again, only, same⟩ := memWrite_aborts (seq := false) (v := v) (undone.writeAborts abort)
  have taken : Framed s s2.takeBool.2 := second.framed.trans (.takeBool s2)
  unfold strdAborted
  rw [forced.betweenAccesses_eq quiet, again]
  simp only
  split
  · refine ⟨_, rfl, doubleAborted_of_framed taken second.regs fun q outside => ?_⟩
    rw [show s2.takeBool.2.byteAt q = s2.byteAt q by cases q <;> rfl, memory, written q outside.1]
  · refine ⟨_, rfl, doubleAborted_of_framed (taken.withMemories (undone.trans only)) second.regs fun q _ => ?_⟩
    rw [byteAt_withMemories _ _ q, same, byteAt_withMemories _ _ q, byteAt_forcedBy]

theorem storeDouble_aborts {rn rd : Reg} {m : Addressed} (even : rd.toNat % 2 = 0) (rd14 : rd ≠ 14)
    (clash : m.newBase ≠ none → rn ≠ rd + 1) (hs : s.memoryInForm) (quiet : s.between = [])
    (aligned : m.address.toNat % 8 = 0)
    (h : s.writeAborts false false .word m.address ∨
      s.writable false false .word m.address ∧ s.writeAborts false false .word (m.address + 4)) :
    ∃ t, storeDouble rn rd m s = .next t ∧ DoubleAborted s m.address t := by
  unfold storeDouble
  rw [doubleGuard_legal even rd14 clash, if_pos aligned]
  rcases h with first | ⟨ok, second⟩
  · obtain ⟨u, write, only, memory⟩ := memWrite_aborts (seq := false) (v := s.reg rd) first
    simp only [write]
    exact doubleAborted_first hs first.1 only memory
  · obtain ⟨s1, write, only, bytes⟩ := memWrite_ok (seq := false) (v := s.reg rd) hs ok
    obtain ⟨s2, write', only', memory⟩ :=
      memWrite_aborts (seq := true) (v := s.reg (rd + 1)) (only.writeAborts second)
    simp only [write, only.betweenAccesses_eq quiet, write']
    exact strdAborted_aborted quiet only (fun q outside => (bytes q).trans (storedByte_outside outside _))
      (only.trans only') memory second

theorem storeDouble_faults {rn rd : Reg} {m : Addressed} (even : rd.toNat % 2 = 0) (rd14 : rd ≠ 14)
    (clash : m.newBase ≠ none → rn ≠ rd + 1) (faulty : s.cp15.a = true ∧ m.address.toNat % 8 ≠ 0) :
    ∃ t, storeDouble rn rd m s = .next t ∧ AbortedFrom s t := by
  refine ⟨_, ?_, .of_memoryOnly (.refl s) fun _ => rfl⟩
  rw [storeDouble, doubleGuard_legal even rd14 clash, if_neg faulty.2, if_pos faulty.1]
  rfl

/-! ## The obligation -/

theorem single_aborts {i : Instr} {c : Cond} {size : Size} {a : Word} {fails : Bool}
    (form : (∃ x, s.loadOf i = some x ∧ c = x.cond ∧ size = x.size ∧ a = x.at_.address ∧
        fails = s.readFails x.force size (alignTo size a) ∧ (x.rd = 15 → misaligned size a = false ∨ s.cp15.a = true)) ∨
      (∃ x, s.storeOf i = some x ∧ c = x.cond ∧ size = x.size ∧ a = x.at_.address ∧
        fails = s.writeFails x.force false (alignTo size a)))
    (hc : Cond.holds c s.cpsr = true) (unwatched : s.unwatched)
    (why : s.alignFault size a = true ∨
      (armTransfer i = true ∨ misaligned size a = false) ∧ s.mapped (alignTo size a) = true ∧ fails = true) :
    ∃ t, exec i s = .next t ∧ AbortedFrom s t := by
  have cause := why.imp_right And.right
  have aligned := why.imp_right And.left
  rcases form with ⟨x, load, rfl, rfl, rfl, rfl, pc⟩ | ⟨x, store, rfl, rfl, rfl, rfl⟩
  · exact (exec_loadRun load hc).aborts pc aligned ⟨unwatched, cause⟩
  · exact (exec_storeRun store hc).aborts aligned ⟨unwatched, cause⟩

/-- Settles O24: an access that aborts leaves its state to the Data Abort; of a doubleword, the other word counts too. -/
theorem abortedTransferChangesNothing : Obligations.AbortedTransferChangesNothing := by
  unfold Obligations.AbortedTransferChangesNothing
  refine ⟨fun i c size a fails s => single_aborts, ?_, ?_⟩
  · intro c rn rd rm s cond rn15 rd15 rm15 rnm rnd form member abort
    simp only [List.mem_cons, List.not_mem_nil, or_false] at member
    rcases member with rfl | rfl
    · exact swap_aborts (size := .word) cond rn15 rd15 rm15 rnm rnd abort
    · exact swap_aborts (size := .byte) cond rn15 rd15 rm15 rnm rnd abort
  · intro c p u w rn rd rm imm m s cond even rd14 clash quiet form member mode legal
    have run := exec_doubleForms member cond mode legal
    refine ⟨fun rmLow rmHigh abort => ?_, fun hs abort => ?_⟩
    · obtain ⟨v, eq, only⟩ := loadDouble_aborts even rd14 clash quiet abort
      obtain ⟨t, next, taken, memory, regs⟩ := abortedLoad only s.mode (s.basePlace rn) [rd, rd + 1]
      refine ⟨t, by rw [run.1 rmLow rmHigh, eq, next], taken, memory, fun k hk other => regs k hk ?_⟩
      rintro r member - rfl
      rcases other with ⟨low, high⟩ | ⟨rn15, same⟩
      · simp only [List.mem_cons, List.not_mem_nil, or_false] at member
        rcases member with rfl | rfl
        · exact absurd rfl low
        · exact absurd rfl high
      · rw [State.basePlace, if_neg rn15, same]
    · rw [run.2]
      rcases abort with faulty | ⟨aligned, words⟩
      · obtain ⟨t, next, clean⟩ := storeDouble_faults even rd14 clash faulty
        exact ⟨t, next, clean.toAbortedClean, fun q _ => clean.memory q⟩
      · obtain ⟨t, next, clean, bytes⟩ := storeDouble_aborts even rd14 clash hs quiet aligned words
        exact ⟨t, next, clean, fun q outside => bytes q (outside.resolve_left fun faulty => faulty.2 aligned)⟩

end Sys2Proof.Machine
end

section
/-! SUPPORT. Proofs: Thumb accesses at unaligned addresses with A = 0 (R57, U-G13), and a store followed by a load of its
address. -/

namespace Sys2Proof.Machine

variable {s t u : State}

/-! ## Unaligned Thumb accesses -/

theorem MemoryOnly.freeCtr (h : MemoryOnly s t) : t.freeCtr = s.freeCtr := by rw [h.core]

/-- The Thumb loads of words and halfwords. -/
theorem exec_thumbLoad {imm : BitVec 5} {imm8 : BitVec 8} {rm rn rd : LoReg} {i : Instr}
    (member : i ∈ [Instr.tLdrReg rm rn rd, .tLdrhReg rm rn rd, .tLdrshReg rm rn rd, .tLdrImm imm rn rd,
      .tLdrhImm imm rn rd, .tLdrSp rd imm8]) {x : LoadForm} (form : s.loadOf i = some x) :
    ∃ ext, exec i s = thumbLoad x.size ext x.at_.address rd s := by
  simp only [List.mem_cons, List.not_mem_nil, or_false] at member
  rcases member with rfl | rfl | rfl | rfl | rfl | rfl
  all_goals
    obtain rfl := Option.some.inj form
    exact ⟨_, rfl⟩

theorem exec_thumbStore {imm : BitVec 5} {imm8 : BitVec 8} {rm rn rd : LoReg} {i : Instr}
    (member : i ∈ [Instr.tStrReg rm rn rd, .tStrhReg rm rn rd, .tStrImm imm rn rd, .tStrhImm imm rn rd,
      .tStrSp rd imm8]) {x : StoreForm} (form : s.storeOf i = some x) :
    exec i s = thumbStore x.size x.at_.address rd s := by
  simp only [List.mem_cons, List.not_mem_nil, or_false] at member
  rcases member with rfl | rfl | rfl | rfl | rfl
  all_goals
    obtain rfl := Option.some.inj form
    rfl

/-- The value of an unaligned load is free. -/
theorem thumbLoad_unaligned {size : Size} {ext : Word → Word} {a : Word} {rd : LoReg} (unaligned : misaligned size a = true)
    (h : s.readable false size a) :
    ∃ t, thumbLoad size ext a rd s = .next t ∧ t.regs = s.withReg rd.reg (Config.freeWord s.freeCtr) ∧
      t.cpsr = s.cpsr ∧ WentOn s t ∧ SameSystem s t ∧ SameMemory s t := by
  obtain ⟨u, read, only⟩ := memRead_readable h
  have framed := only.framed.trans (.takeWord u)
  obtain ⟨cpsr, went, system⟩ := (framed.trans (.setReg u.takeWord.2 rd.reg u.takeWord.1)).advance
  refine ⟨_, ?_, ?_, cpsr, went, system, only.memory⟩
  · simp only [thumbLoad, read, Access.finish, unaligned, if_true]
  · simp [State.withReg, only.regs, only.toMemoryOnly.freeCtr, framed.mode]

/-- The word of an unaligned store is free. -/
theorem thumbStore_unaligned {size : Size} {a : Word} {rd : LoReg} (unchecked : s.cp15.a = false)
    (unaligned : misaligned size a = true) (hs : s.memoryInForm)
    (h : s.writable false false .word (alignTo .word a)) :
    ∃ t, thumbStore size a rd s = .next t ∧ t.regs = s.regs ∧ t.cpsr = s.cpsr ∧ WentOn s t ∧ SameSystem s t ∧
      ∀ p, t.byteAt p = s.storedByte false .word (alignTo .word a) (Config.freeWord s.freeCtr) p (s.byteAt p) := by
  obtain ⟨u, write, only, bytes⟩ := memWrite_ok (s := s.takeWord.2) (seq := false) (v := s.takeWord.1) hs h
  obtain ⟨cpsr, went, system⟩ := ((Framed.takeWord s).trans only.framed).advance
  refine ⟨u.advance, ?_, only.regs, cpsr, went, system, fun p => (State.advance_byteAt u p).trans (bytes p)⟩
  simp only [thumbStore, unaligned, unchecked, Bool.not_false, Bool.and_true, if_true, write, Access.finish]

/-- Settles O28: an unaligned Thumb access is an aligned one, and takes the next free word for its value. -/
theorem thumbUnalignedIsFree : Obligations.ThumbUnalignedIsFree := by
  unfold Obligations.ThumbUnalignedIsFree
  intro imm imm8 rm rn rd s unchecked
  refine ⟨fun i member x form unaligned readable => ?_, fun i member x form unaligned hs writable => ?_⟩
  · obtain ⟨ext, run⟩ := exec_thumbLoad member form
    rw [run]
    exact thumbLoad_unaligned unaligned readable
  · rw [exec_thumbStore member form]
    exact thumbStore_unaligned unchecked unaligned hs writable

/-! ## A store, then a load -/

/-- The four bytes of a word, put together again. -/
theorem wordOfLanes_laneByte (v : Word) : wordOfLanes (laneByte v 3) (laneByte v 2) (laneByte v 1) (laneByte v 0) = v := by
  apply BitVec.eq_of_getLsbD_eq
  intro k hk
  unfold wordOfLanes laneByte
  simp only [BitVec.getLsbD_append, BitVec.getLsbD_extractLsb']
  have byte : k / 8 = 0 ∨ k / 8 = 1 ∨ k / 8 = 2 ∨ k / 8 = 3 := by omega
  rcases byte with h | h | h | h
  · simp [show k < 8 by omega]
  · simp [show ¬k < 8 by omega, show k - 8 < 8 by omega, show 8 + (k - 8) = k by omega]
  · simp [show ¬k < 8 by omega, show ¬k - 8 < 8 by omega, show k - 8 - 8 < 8 by omega,
      show 16 + (k - 8 - 8) = k by omega]
  · simp [show ¬k < 8 by omega, show ¬k - 8 < 8 by omega, show ¬k - 8 - 8 < 8 by omega, show k - 8 - 8 - 8 < 8 by omega,
      show 24 + (k - 8 - 8 - 8) = k by omega]

/-- Each lane of a word that is stored and not lost. -/
theorem storedByte_word {force : Bool} {a v : Word} {k : Nat} (hk : k < 4) (aligned : a.toNat % 4 = 0)
    (kept : s.lostWrite force a = false) (old : Byte) :
    s.storedByte force .word a v (s.placeOf a k) old = laneByte v k := by
  have all : ∀ j < 4, (laneMask .word 0).getLsbD j = true := by decide
  have lane : s.laneAt .word a (s.placeOf a k) = some k := by
    have := laneAt_some (s := s) (size := .word) (addr := a) hk
      (all k hk)
    rwa [alignTo_word_of_mod aligned] at this
  unfold State.storedByte
  rw [lane, alignTo_word_of_mod aligned]
  simp [kept, putLanes, laneStart, Size.trunc]

/-- A word that is stored and not lost is what a word read gives (R54). -/
theorem loaded_of_stored {force : Bool} {a v : Word} (system : SameSystem s t) (aligned : a.toNat % 4 = 0)
    (kept : s.lostWrite force a = false) (bytes : ∀ p, t.byteAt p = s.storedByte force .word a v p (s.byteAt p)) :
    t.loaded .word a = v := by
  have place (k : Nat) : t.placeOf a k = s.placeOf a k := by
    unfold State.placeOf State.routeData State.tcmWord
    rw [system.cp15, system.pins]
  have word : t.settledWord a = v := by
    unfold State.settledWord
    rw [place, place, place, place, bytes, bytes, bytes, bytes, storedByte_word (by decide) aligned kept,
      storedByte_word (by decide) aligned kept, storedByte_word (by decide) aligned kept,
      storedByte_word (by decide) aligned kept, wordOfLanes_laneByte]
  unfold State.loaded
  rw [alignTo_word_of_mod aligned, word]
  simp [takeLanes, laneStart, Size.trunc]

/-- A word offset form with an immediate offset has no restriction on its registers (R215). -/
theorem offsetForm_legal (rn rd : Reg) :
    transferLegal (writesBack .offset) rn rd none (decide (Size.word ≠ .word) || false) = true := by
  simp [transferLegal, writesBack]

theorem storeOf_strImm_zero (rn rd : Reg) :
    s.storeOf (.strImm .al .offset true rn rd 0) = some ⟨.al, false, .word, rd, rn, ⟨s.reg rn, none⟩⟩ := by
  show s.store2 .al false .word .offset true rn rd none ((0 : BitVec 12).setWidth 32) = _
  rw [State.store2, if_pos (offsetForm_legal rn rd)]
  simp [addressMode2, offsetAddress]

theorem loadOf_ldrImm_zero (rn rd : Reg) :
    s.loadOf (.ldrImm .al .offset true rn rd 0) = some ⟨.al, false, .word, false, rd, rn, ⟨s.reg rn, none⟩⟩ := by
  show s.load2 .al false .word .offset true rn rd none ((0 : BitVec 12).setWidth 32) = _
  rw [State.load2, if_pos (offsetForm_legal rn rd)]
  simp [addressMode2, offsetAddress]

/-- Settles O33: the store leaves the base alone and puts its word where the load reads it. -/
theorem storeThenLoadReturnsValue : Obligations.StoreThenLoadReturnsValue := by
  unfold Obligations.StoreThenLoadReturnsValue
  intro rn rd rm s t hs rn15 rd15 rm15 aligned writable kept store readable
  obtain ⟨t', next, ⟨regs, cpsr, -, system⟩, bytes⟩ :=
    (exec_storeRun (storeOf_strImm_zero rn rd) rfl).completes hs writable (.inl rfl)
  obtain rfl : t' = t := by simpa using next.symm.trans store
  have mode : t'.mode = s.mode := by unfold State.mode; rw [cpsr]
  have base : t'.reg rn = s.reg rn := by
    rw [State.reg_bank rn15, State.reg_bank rn15, State.bankReg, regs, mode]
    rfl
  have word : t'.loaded .word (s.reg rn) = s.reg rd := by
    rw [loaded_of_stored system aligned kept bytes, State.storeReg, if_neg rd15, State.reg_bank rd15]
  have form := loadOf_ldrImm_zero (s := t') rn rm
  rw [base] at form
  obtain ⟨u, next', regs', cpsr', -⟩ := (exec_loadRun form rfl).completes rm15 (.inl rfl) readable
  refine ⟨u, next', ?_⟩
  have mode' : u.mode = t'.mode := by unfold State.mode; rw [cpsr']
  have value : LoadForm.value ⟨.al, false, .word, false, rm, rn, ⟨s.reg rn, none⟩⟩ (s.reg rd) = s.reg rd := by
    rw [LoadForm.value, aligned]
    simp [BitVec.rotateRight, BitVec.rotateRightAux]
  rw [State.reg_bank rm15, State.bankReg, mode', regs', word, value]
  simp

end Sys2Proof.Machine
end

section
/-! SUPPORT. Proofs: load and store multiple (R234 to R241, R296 to R299). -/

namespace Sys2Proof.Machine

variable {s t u : State}

/-! ## The forms (R234) -/

/-- A load or store multiple whose registers no rule excludes (R234). -/
def State.listForm (s : State) (c : Cond) (bank : Mode) (p up w : Bool) (rn : Reg) (regs : List Reg) (user : Bool) :
    MultipleForm :=
  ⟨c, bank, rn, regs, multipleStart p up (s.reg rn) regs.length,
    if w then some (multipleNewBase up (s.reg rn) regs.length) else none, user⟩

theorem mode4_some {c : Cond} {bank : Mode} {p up w : Bool} {rn : Reg} {regs : List Reg} {user : Bool} {x : MultipleForm}
    (h : s.mode4 c bank p up w rn regs user = some x) :
    regs ≠ [] ∧ rn ≠ 15 ∧ x = s.listForm c bank p up w rn regs user := by
  unfold State.mode4 at h
  dsimp only at h
  split at h
  next legal =>
    refine ⟨legal.1, legal.2, (Option.some.inj h).symm.trans ?_⟩
    cases p <;> cases up <;> rfl
  · cases h

theorem multipleGuard_legal {regs : List Reg} {rn : Reg} (nonempty : regs ≠ []) (rn15 : rn ≠ 15) (k : Result) :
    multipleGuard regs.isEmpty rn k = k := by
  rw [multipleGuard, List.isEmpty_eq_false_iff.mpr nonempty, decide_eq_false rn15]
  rfl

/-- A mode that is neither User nor System has an SPSR (R22). -/
theorem spsr?_isNone (h : ¬(s.mode = .usr ∨ s.mode = .sys)) : s.spsr?.isNone = false := by
  unfold State.spsr?
  revert h
  cases s.mode <;> simp [Mode.spsrIndex]

/-! ## Stores -/

/-- What ends a load or store multiple: the base, and the mark of a user-bank transfer. -/
def MultipleForm.ends (x : MultipleForm) (t : State) : State :=
  if x.user then (t.setReg? x.rn x.newBase).afterUserTransfer else t.setReg? x.rn x.newBase

/-- The words of a store multiple, with their addresses. -/
def State.storeList (s : State) (x : MultipleForm) : List (Word × Word) := x.addresses.zip (x.regs.map (s.listValue x))

theorem storeMultiple_form {x : MultipleForm} {value : Reg → Word} {w : Bool} {k : State → Result}
    (base : x.newBase.isSome = w) (values : ∀ r, value r = if r = 15 then s.storeReg 15 else s.bankReg x.bank r) :
    storeMultiple value w x.rn x.start x.regs s k =
      (writeWords false (s.storeList x) s.takeWord.2).finish fun _ t => k t := by
  have same : storeValues value w x.rn s.takeWord.1 x.regs = x.regs.map (s.listValue x) := by
    refine List.map_congr_left fun r _ => ?_
    rw [State.listValue, base, values]
    by_cases hr : r = x.rn
    · subst hr
      simp [State.takeWord_value]
    · simp [hr]
  rw [storeMultiple, State.storeList, MultipleForm.addresses, ← same]

theorem storeReg_values (s : State) (r : Reg) : s.storeReg r = if r = 15 then s.storeReg 15 else s.bankReg s.mode r := by
  by_cases h : r = 15
  · rw [if_pos h, h]
  · rw [if_neg h, State.storeReg, if_neg h]

theorem stmList_form {c : Cond} {p up w : Bool} {rn : Reg} {regs : List Reg} {x : MultipleForm}
    (h : s.mode4 c s.mode p up w rn regs false = some x) :
    stmList p up w rn regs s =
      (writeWords false (s.storeList x) s.takeWord.2).finish fun _ t => .next (x.ends t).advance := by
  obtain ⟨nonempty, rn15, rfl⟩ := mode4_some h
  rw [stmList, multipleGuard_legal nonempty rn15]
  refine (storeMultiple_form (x := s.listForm c s.mode p up w rn regs false) (by cases w <;> rfl) (storeReg_values s)).trans ?_
  cases w <;> rfl

/-- Every store multiple writes the words of its form, then ends. -/
theorem exec_storeMultiple {i : Instr} {x : MultipleForm} (form : s.multipleStore i = some x)
    (cond : Cond.holds x.cond s.cpsr = true) :
    exec i s = (writeWords false (s.storeList x) s.takeWord.2).finish fun _ t => .next (x.ends t).advance := by
  unfold State.multipleStore at form
  split at form
  next c p up w rn list =>
    obtain ⟨-, -, rfl⟩ := mode4_some form
    exact (onCond_pass (stmList p up w rn (listRegs list)) cond).trans (stmList_form form)
  next c p up w rn list =>
    split at form
    · cases form
    next legal =>
      rw [not_or] at legal
      obtain ⟨nonempty, rn15, rfl⟩ := mode4_some form
      have guard : (w || s.spsr?.isNone) = false := by rw [eq_false_of_ne_true legal.1, spsr?_isNone legal.2]; rfl
      have run : exec (.stmUser c p up w rn list) s = multipleGuard (listRegs list).isEmpty rn (userBankGuard w s
          (storeMultiple s.userReg false rn (multipleStart p up (s.reg rn) (listRegs list).length) (listRegs list) s
            fun t => .next t.afterUserTransfer.advance)) := by
        show execStmUser c p up w rn list s = _
        rw [execStmUser]
        exact onCond_pass _ cond
      rw [run, multipleGuard_legal nonempty rn15, userBankGuard, guard, refuseIf_false]
      exact storeMultiple_form (x := s.listForm c .usr p up false rn (listRegs list) true) rfl fun r => rfl
  · exact stmList_form form
  · exact stmList_form form
  · cases form

theorem MultipleForm.ends_framed {x : MultipleForm} (h : Framed s t) (regs : t.regs = s.regs) :
    (x.ends t).advance.regs = s.withBase x.rn x.newBase ∧ (x.ends t).advance.cpsr = s.cpsr ∧
      WentOn s (x.ends t).advance ∧ (x.ends t).advance.userXfer = (s.userXfer || x.user) ∧
      SameSystem s { (x.ends t).advance with userXfer := s.userXfer } := by
  obtain ⟨regs', cpsr, went, system⟩ := storeDone_of_framed h regs x.rn x.newBase
  have xfer := system.userXfer
  unfold MultipleForm.ends
  cases x.user
  · rw [if_neg Bool.false_ne_true, Bool.or_false, ← xfer]
    exact ⟨regs', cpsr, went, rfl, system⟩
  · rw [if_pos rfl, Bool.or_true]
    refine ⟨regs', cpsr, went, rfl, ?_⟩
    rw [← xfer]
    exact system

theorem MultipleForm.ends_byteAt (x : MultipleForm) (t : State) (p : Place) : (x.ends t).byteAt p = t.byteAt p := by
  unfold MultipleForm.ends
  split
  · exact (show State.byteAt (State.afterUserTransfer _) p = State.byteAt _ p by cases p <;> rfl).trans
      (State.setReg?_byteAt t x.rn x.newBase p)
  · exact State.setReg?_byteAt t x.rn x.newBase p

theorem mem_storeList {x : MultipleForm} {w : Word × Word} (h : w ∈ s.storeList x) : w.1 ∈ x.addresses :=
  (List.of_mem_zip (a := w.1) (b := w.2) h).1

/-- Settles O31: the words are written in order, then the base. -/
theorem storeMultipleResult : Obligations.StoreMultipleResult := by
  unfold Obligations.StoreMultipleResult
  intro i x s form cond hs quiet writable
  obtain ⟨t, write, only, bytes⟩ := writeWords_writable (s := s.takeWord.2) (l := s.storeList x) hs quiet
    (fun w hw => writable w.1 (mem_storeList hw)) false
  obtain ⟨regs, cpsr, went, xfer, system⟩ :=
    MultipleForm.ends_framed (x := x) ((Framed.takeWord s).trans only.framed) only.regs
  refine ⟨(x.ends t).advance, ?_, regs, cpsr, went, xfer, system, fun p => ?_⟩
  · rw [exec_storeMultiple form cond, write]
    rfl
  · rw [State.advance_byteAt, MultipleForm.ends_byteAt, bytes]
    rfl

end Sys2Proof.Machine
end

section
/-! SUPPORT. Proofs: the transfers of a coprocessor, LDC and STC (R148, R155, R156). -/

namespace Sys2Proof.Machine

variable {s t u : State}

/-! ## What a coprocessor has received and has still to drive -/

theorem sendCp_cp_congr (h : t.cp = s.cp) (n : Reg) (x : CpInput) : (t.sendCp n x).cp = (s.sendCp n x).cp := by
  simp only [State.sendCp_cp, h]

theorem setReplies_cp_congr (h : t.cp = s.cp) (n : Reg) (rs : List CpReply) : (t.setReplies n rs).cp = (s.setReplies n rs).cp := by
  simp only [State.setReplies_cp, h]

theorem setWaiting_cp_congr (h : t.cp = s.cp) (w : Option CpWait) : (t.setWaiting w).cp = (s.setWaiting w).cp := by
  simp only [State.setWaiting_cp, h]

/-- The cycles to come are replaced, whatever they were. -/
theorem setReplies_setReplies (s : State) (n : Reg) (a b : List CpReply) :
    ((s.setReplies n a).setReplies n b).cp = (s.setReplies n b).cp := by
  simp only [State.setReplies_cp, List.map_map]
  congr 2
  funext u
  simp only [Function.comp]
  split <;> simp_all

/-- What a coprocessor receives and what it drives are apart. -/
theorem setReplies_sendCp (s : State) (n : Reg) (rs : List CpReply) (x : CpInput) :
    ((s.setReplies n rs).sendCp n x).cp = ((s.sendCp n x).setReplies n rs).cp := by
  simp only [State.setReplies_cp, State.sendCp_cp, List.map_map]
  congr 2
  funext u
  simp only [Function.comp]
  split <;> simp_all

theorem cpReplies_sendCp (s : State) (n : Reg) (x : CpInput) : (s.sendCp n x).cpReplies n = s.cpReplies n := by
  unfold State.cpReplies
  rw [State.sendCp_cp]
  induction s.cp.units with
  | nil => rfl
  | cons u us ih =>
    by_cases h : u.num = n
    · simp [List.find?, h]
    · simp only [List.map_cons, h, if_false, List.find?, decide_false] at ih ⊢
      exact ih

/-- The state with the coprocessors of another. -/
def State.withCp (s : State) (c : Cp) : State := { s with cp := c }

theorem MemoryOnly.withCp (h : MemoryOnly s t) (c : Cp) : MemoryOnly (s.withCp c) (t.withCp c) := by
  refine ⟨?_, h.itcmErr, h.dtcmErr, h.ahbErr, h.inForm⟩
  unfold State.withCp
  conv_lhs => rw [h.core]

theorem ReadOnly.withCp (h : ReadOnly s t) (c : Cp) : ReadOnly (s.withCp c) (t.withCp c) :=
  ⟨h.toMemoryOnly.withCp c, h.memory, h.readFails⟩

theorem MemoryOnly.cp (h : MemoryOnly s t) : t.cp = s.cp := h.sameSystem.cp

/-! ## Word addresses -/

theorem cpWordAddress_succ (start : Word) (k : Nat) : cpWordAddress start (k + 1) = cpWordAddress start k + 4 := by
  show start + BitVec.ofNat 32 (4 * (k + 1)) = start + BitVec.ofNat 32 (4 * k) + 4#32
  apply BitVec.eq_of_toNat_eq
  simp only [BitVec.toNat_add, BitVec.toNat_ofNat]
  omega

theorem cpWordAddress_add (start : Word) (k j : Nat) :
    cpWordAddress (cpWordAddress start k) j = cpWordAddress start (k + j) := by
  unfold cpWordAddress
  apply BitVec.eq_of_toNat_eq
  simp only [BitVec.toNat_add, BitVec.toNat_ofNat]
  omega

theorem wordAddresses_succ (start : Word) (k : Nat) :
    wordAddresses start (k + 1) = wordAddresses start k ++ [cpWordAddress start k] := by
  induction k generalizing start with
  | zero => simp [wordAddresses, cpWordAddress]
  | succ k ih =>
    have next : cpWordAddress (start + 4) k = cpWordAddress start (k + 1) := by
      rw [Nat.add_comm, ← cpWordAddress_add]
      rfl
    rw [wordAddresses, ih, next]
    rfl

theorem wordAddresses_length (start : Word) (k : Nat) : (wordAddresses start k).length = k := by
  induction k generalizing start with
  | zero => rfl
  | succ k ih => rw [wordAddresses, List.length_cons, ih]

/-! ## The instruction as Execute begins with it (R148) -/

theorem beginCp_offers {n : Reg} {i : Instr} {moved : List Word} {r : State} (h : s.offers n i moved r) :
    beginCp n (Code.word (encode i)) s = (moved, r) := by
  unfold beginCp
  rcases h with ⟨waiting, rfl, rfl⟩ | ⟨waiting, rfl⟩
  · rw [waiting]
  · rw [waiting]
    exact if_pos rfl

theorem offers_cpReplies {n : Reg} {i : Instr} {moved : List Word} {r : State} (h : s.offers n i moved r) :
    r.cpReplies n = s.cpReplies n := by
  rcases h with ⟨-, -, rfl⟩ | ⟨-, rfl⟩
  · exact cpReplies_sendCp s n _
  · rfl

theorem offers_withCp {n : Reg} {i : Instr} {moved : List Word} {r : State} (h : s.offers n i moved r) :
    r.withCp s.cp = s := by
  rcases h with ⟨-, -, rfl⟩ | ⟨-, rfl⟩ <;> rfl

theorem ReadOnly.of_offers {n : Reg} {i : Instr} {moved : List Word} {r : State} (h : s.offers n i moved r) :
    ReadOnly s (r.withCp s.cp) := by
  rw [offers_withCp h]
  exact .refl s

/-- What a coprocessor instruction makes of the end of its handshake. -/
def Handshake.ends (i : Instr) (k : List Word → State → Result) : Handshake → Result
  | .done ws t => k ws (t.setWaiting none)
  | .wait ws t => .next (t.setWaiting (some { instr := Code.word (encode i), moved := ws }))
  | .absent t => raiseUndefined (t.setWaiting none)
  | .abort t => raiseDataAbort (t.setWaiting none)
  | .stop x => x.result

theorem coprocessorInstr_offers {n : Reg} {i : Instr} {moved : List Word} {r : State} (h : s.offers n i moved r)
    (limit : Nat) (move : Transfer) (k : List Word → State → Result) :
    coprocessorInstr n i limit move k s = (handshakeCycles n limit move (s.cpReplies n) moved r).ends i k := by
  rw [coprocessorInstr, beginCp_offers h]
  simp only [offers_cpReplies h]
  cases handshakeCycles n limit move (s.cpReplies n) moved r <;> rfl

theorem badBase_none {m : Addressed} {rn : Reg} (h : m.newBase = none ∨ rn ≠ 15) : badBase m rn = none := by
  unfold badBase badR15
  rcases h with none | rn15
  · rw [none]; rfl
  · rw [decide_eq_false rn15, Bool.and_false]; rfl

/-! ## LDC -/

/-- One word of an LDC (R155). -/
def ldcMove (n : Reg) (start : Word) : Transfer := fun k _ s =>
  (memRead false .word (cpWordAddress start k) (s.beforeWord k)).bind fun w s => .ok w (s.sendCp n (.data w))

theorem beforeWord_eq (quiet : t.between = []) (k : Nat) : t.beforeWord k = t := by
  unfold State.beforeWord
  split
  · rfl
  · exact State.betweenAccesses_nil quiet

/-- A word that is read and given to the coprocessor. -/
theorem ldcMove_readable {n : Reg} {start : Word} {k : Nat} (w : Word) (quiet : s.between = [])
    (h : ReadOnly s (t.withCp s.cp)) (readable : s.readable false .word (cpWordAddress start k)) :
    ∃ u, ldcMove n start k w t = .ok (s.loaded .word (cpWordAddress start k)) u ∧ ReadOnly s (u.withCp s.cp) ∧
      u.cp = (t.sendCp n (.data (s.loaded .word (cpWordAddress start k)))).cp := by
  obtain ⟨u, read, only⟩ := memRead_readable (s := t) (h.readable readable)
  have value : t.loaded .word (cpWordAddress start k) = s.loaded .word (cpWordAddress start k) := h.loaded .word _
  rw [value] at read
  refine ⟨u.sendCp n (.data (s.loaded .word (cpWordAddress start k))), ?_, h.trans (only.withCp s.cp),
    sendCp_cp_congr only.cp n _⟩
  rw [ldcMove, beforeWord_eq (t := t) (h.sameSystem.between.trans quiet), read]
  rfl

/-- A word whose read takes the Data Abort is not given to the coprocessor. -/
theorem ldcMove_aborts {n : Reg} {start : Word} {k : Nat} (w : Word) (quiet : s.between = [])
    (h : ReadOnly s (t.withCp s.cp)) (abort : s.readAborts false .word (cpWordAddress start k)) :
    ∃ u, ldcMove n start k w t = .abort u ∧ ReadOnly s (u.withCp s.cp) ∧ u.cp = t.cp := by
  obtain ⟨u, read, only⟩ := memRead_aborts (s := t) (h.readAborts abort)
  refine ⟨u, ?_, h.trans (only.withCp s.cp), only.cp⟩
  rw [ldcMove, beforeWord_eq (t := t) (h.sameSystem.between.trans quiet), read]
  rfl

/-- The words that an LDC reads. -/
def State.ldcWords (s : State) (start : Word) (k : Nat) : List Word := (wordAddresses start k).map (s.loaded .word)

theorem sendWords_append (r : State) (n : Reg) (ws vs : List Word) :
    r.sendWords n (ws ++ vs) = (r.sendWords n ws).sendWords n vs := List.foldl_append

theorem sendWords_cp_congr (h : t.cp = s.cp) (n : Reg) (ws : List Word) : (t.sendWords n ws).cp = (s.sendWords n ws).cp := by
  induction ws generalizing s t with
  | nil => exact h
  | cons w ws ih => exact ih (sendCp_cp_congr h n _)

theorem setReplies_sendWords (s : State) (n : Reg) (rs : List CpReply) (ws : List Word) :
    ((s.setReplies n rs).sendWords n ws).cp = ((s.sendWords n ws).setReplies n rs).cp := by
  induction ws generalizing s with
  | nil => rfl
  | cons w ws ih => exact (sendWords_cp_congr (setReplies_sendCp s n rs _) n ws).trans (ih _)

/-- An LDC over its cycles with GO: each word is read and given to the coprocessor, and the cycles after them follow. -/
theorem ldc_goCycles {n : Reg} {start : Word} {ws : List Word} {tail : List CpReply} {moved : List Word}
    (quiet : s.between = []) (h : ReadOnly s (t.withCp s.cp)) (room : moved.length + ws.length < 16)
    (readable : ∀ a ∈ wordAddresses (cpWordAddress start moved.length) ws.length, s.readable false .word a) :
    ∃ t', handshakeCycles n 16 (ldcMove n start) (ws.map .go ++ tail) moved t =
        handshakeCycles n 16 (ldcMove n start) tail
          (moved ++ s.ldcWords (cpWordAddress start moved.length) ws.length) t' ∧
      ReadOnly s (t'.withCp s.cp) ∧
      ∀ q, (t'.setReplies n q).cp =
        ((t.sendWords n (s.ldcWords (cpWordAddress start moved.length) ws.length)).setReplies n q).cp := by
  induction ws generalizing t moved with
  | nil => exact ⟨t, by simp [State.ldcWords, wordAddresses], h, fun _ => rfl⟩
  | cons w ws ih =>
    rw [List.length_cons] at room
    obtain ⟨u, move, only, cp⟩ := ldcMove_readable (t := t.setReplies n (ws.map .go ++ tail)) (n := n) w quiet h
      (readable _ List.mem_cons_self)
    obtain ⟨t', rest, only', cp'⟩ := ih (t := u) (moved := moved ++ [s.loaded .word (cpWordAddress start moved.length)]) only
      (by rw [List.length_append, List.length_singleton]; omega)
      (by rw [List.length_append, List.length_singleton, cpWordAddress_succ]
          exact fun a ha => readable a (List.mem_cons_of_mem _ ha))
    rw [List.length_append, List.length_singleton, cpWordAddress_succ] at rest cp'
    refine ⟨t', ?_, only', fun q => ?_⟩
    · rw [List.map_cons, List.cons_append, handshakeCycles]
      simp only [move, show ¬moved.length + 1 = 16 by omega, if_false]
      rw [rest, List.append_assoc]
      rfl
    · rw [cp' q]
      have first := (cp.trans (setReplies_sendCp t n _ _))
      exact (setReplies_cp_congr ((sendWords_cp_congr first n _).trans (setReplies_sendWords _ n _ _)) n q).trans
        (setReplies_setReplies _ n _ q)

theorem ldcWords_length (s : State) (start : Word) (k : Nat) : (s.ldcWords start k).length = k := by
  rw [State.ldcWords, List.length_map, wordAddresses_length]

/-- The words of a transfer and one more. -/
theorem ldcWords_succ (s : State) (start : Word) (m k : Nat) :
    s.ldcWords (cpWordAddress start m) (k + 1) =
      s.ldcWords (cpWordAddress start m) k ++ [s.loaded .word (cpWordAddress start (m + k))] := by
  rw [State.ldcWords, wordAddresses_succ, List.map_append, cpWordAddress_add]
  rfl

/-- The cycle with which a transfer ends: LAST, or GO for its 16th word (R146). -/
def EndsBurst (cycle : CpReply) (w : Word) (before : Nat) : Prop := cycle = .last w ∨ cycle = .go w ∧ before = 15

/-- A cycle that ends the transfer moves one more word, and the handshake is done. -/
theorem handshakeCycles_ends {n : Reg} {move : Transfer} {cycle : CpReply} {w d : Word} {rs : List CpReply}
    {moved : List Word} (final : EndsBurst cycle w moved.length) (h : move moved.length w (t.setReplies n rs) = .ok d u) :
    handshakeCycles n 16 move (cycle :: rs) moved t = .done (moved ++ [d]) u := by
  rcases final with rfl | ⟨rfl, full⟩
  · simp only [handshakeCycles, h]
  · rw [full] at h
    simp only [handshakeCycles, full, h, if_true]

/-- A cycle with GO or LAST whose word aborts ends the handshake. -/
theorem handshakeCycles_aborts {n : Reg} {move : Transfer} {cycle : CpReply} {w : Word} {rs : List CpReply}
    {moved : List Word} (accepts : cycle = .go w ∨ cycle = .last w)
    (h : move moved.length w (t.setReplies n rs) = .abort u) :
    handshakeCycles n 16 move (cycle :: rs) moved t = .abort u := by
  rcases accepts with rfl | rfl <;> simp only [handshakeCycles, h]

/-- An LDC to its last word. -/
theorem ldc_done {n : Reg} {start w : Word} {ws : List Word} {cycle : CpReply} {rs : List CpReply} {moved : List Word}
    (quiet : s.between = []) (h : ReadOnly s (t.withCp s.cp)) (room : moved.length + ws.length < 16)
    (final : EndsBurst cycle w (moved.length + ws.length))
    (readable : ∀ a ∈ wordAddresses (cpWordAddress start moved.length) (ws.length + 1), s.readable false .word a) :
    ∃ ds u, handshakeCycles n 16 (ldcMove n start) (ws.map .go ++ cycle :: rs) moved t = .done ds u ∧
      ReadOnly s (u.withCp s.cp) ∧
      u.cp = ((t.sendWords n (s.ldcWords (cpWordAddress start moved.length) (ws.length + 1))).setReplies n rs).cp := by
  rw [wordAddresses_succ] at readable
  obtain ⟨t', run, only, cp⟩ := ldc_goCycles (n := n) (tail := cycle :: rs) quiet h room
    fun a ha => readable a (List.mem_append_left _ ha)
  have count : (moved ++ s.ldcWords (cpWordAddress start moved.length) ws.length).length = moved.length + ws.length := by
    rw [List.length_append, ldcWords_length]
  have address := readable _ (List.mem_append_right _ List.mem_cons_self)
  rw [cpWordAddress_add] at address
  obtain ⟨u, move, only', cp'⟩ := ldcMove_readable (t := t'.setReplies n rs) (n := n) w quiet only address
  refine ⟨_, u, run.trans (handshakeCycles_ends (w := w) (by rw [count]; exact final) (by rw [count]; exact move)), only', ?_⟩
  rw [ldcWords_succ, sendWords_append, cp']
  exact (sendCp_cp_congr (cp rs) n _).trans (setReplies_sendCp _ n rs _)

/-- An LDC to a word whose read takes the Data Abort. -/
theorem ldc_aborts {n : Reg} {start w : Word} {ws : List Word} {cycle : CpReply} {rs : List CpReply} {moved : List Word}
    (quiet : s.between = []) (h : ReadOnly s (t.withCp s.cp)) (room : moved.length + ws.length < 16)
    (accepts : cycle = .go w ∨ cycle = .last w)
    (readable : ∀ a ∈ wordAddresses (cpWordAddress start moved.length) ws.length, s.readable false .word a)
    (abort : s.readAborts false .word (cpWordAddress start (moved.length + ws.length))) :
    ∃ u, handshakeCycles n 16 (ldcMove n start) (ws.map .go ++ cycle :: rs) moved t = .abort u ∧
      ReadOnly s (u.withCp s.cp) ∧
      u.cp = ((t.sendWords n (s.ldcWords (cpWordAddress start moved.length) ws.length)).setReplies n rs).cp := by
  obtain ⟨t', run, only, cp⟩ := ldc_goCycles (n := n) (tail := cycle :: rs) quiet h room readable
  have count : (moved ++ s.ldcWords (cpWordAddress start moved.length) ws.length).length = moved.length + ws.length := by
    rw [List.length_append, ldcWords_length]
  obtain ⟨u, move, only', cp'⟩ := ldcMove_aborts (t := t'.setReplies n rs) (n := n) w quiet only abort
  exact ⟨u, run.trans (handshakeCycles_aborts (w := w) accepts (by rw [count]; exact move)), only', cp'.trans (cp rs)⟩

/-! ## STC -/

/-- One word of an STC (R156). -/
def stcMove (start : Word) : Transfer := fun k w s =>
  (memWrite false false (decide (k ≠ 0)) .word (cpWordAddress start k) w (s.beforeWord k)).bind fun _ s => .ok w s

/-- In the midst of an STC: the words `done` have been stored. -/
def StcStored (s : State) (done : List (Word × Word)) (t : State) : Prop :=
  MemoryOnly s (t.withCp s.cp) ∧ ∀ p, t.byteAt p = s.storedWords done p

theorem storedWords_append (s : State) (l : List (Word × Word)) (a v : Word) (p : Place) :
    s.storedWords (l ++ [(a, v)]) p = s.storedByte false .word a v p (s.storedWords l p) := by
  unfold State.storedWords
  rw [List.foldl_append]
  rfl

theorem stcMove_writable {start w : Word} {k : Nat} {done : List (Word × Word)} (hs : s.memoryInForm)
    (quiet : s.between = []) (h : StcStored s done t) (writable : s.writable false false .word (cpWordAddress start k)) :
    ∃ u, stcMove start k w t = .ok w u ∧ StcStored s (done ++ [(cpWordAddress start k, w)]) u ∧ u.cp = t.cp := by
  obtain ⟨only, bytes⟩ := h
  obtain ⟨u, write, only', bytes'⟩ :=
    memWrite_ok (s := t) (seq := decide (k ≠ 0)) (v := w) (only.inForm hs) (only.writable writable)
  refine ⟨u, ?_, ⟨only.trans (only'.withCp s.cp), fun p => ?_⟩, only'.cp⟩
  · rw [stcMove, beforeWord_eq (t := t) (only.sameSystem.between.trans quiet), write]
    rfl
  · rw [bytes', bytes, storedWords_append]
    exact only.storedByte false .word _ w p _

theorem stcMove_aborts {start w : Word} {k : Nat} {done : List (Word × Word)} (quiet : s.between = [])
    (h : StcStored s done t) (abort : s.writeAborts false false .word (cpWordAddress start k)) :
    ∃ u, stcMove start k w t = .abort u ∧ StcStored s done u ∧ u.cp = t.cp := by
  obtain ⟨only, bytes⟩ := h
  obtain ⟨u, write, only', memory⟩ :=
    memWrite_aborts (s := t) (seq := decide (k ≠ 0)) (v := w) (only.writeAborts abort)
  refine ⟨u, ?_, ⟨only.trans (only'.withCp s.cp), fun p => (memory p).trans (bytes p)⟩, only'.cp⟩
  rw [stcMove, beforeWord_eq (t := t) (only.sameSystem.between.trans quiet), write]
  rfl

/-- An STC over its cycles with GO: each word that the coprocessor drives is stored. -/
theorem stc_goCycles {n : Reg} {start : Word} {ws : List Word} {tail : List CpReply} {moved : List Word}
    {done : List (Word × Word)} (hs : s.memoryInForm) (quiet : s.between = []) (h : StcStored s done t)
    (room : moved.length + ws.length < 16)
    (writable : ∀ a ∈ wordAddresses (cpWordAddress start moved.length) ws.length, s.writable false false .word a) :
    ∃ t', handshakeCycles n 16 (stcMove start) (ws.map .go ++ tail) moved t =
        handshakeCycles n 16 (stcMove start) tail (moved ++ ws) t' ∧
      StcStored s (done ++ (wordAddresses (cpWordAddress start moved.length) ws.length).zip ws) t' ∧
      ∀ q, (t'.setReplies n q).cp = (t.setReplies n q).cp := by
  induction ws generalizing t moved done with
  | nil => exact ⟨t, by simp, by simpa [wordAddresses] using h, fun _ => rfl⟩
  | cons w ws ih =>
    rw [List.length_cons] at room
    obtain ⟨u, move, stored, cp⟩ := stcMove_writable (t := t.setReplies n (ws.map .go ++ tail)) (w := w) hs quiet h
      (writable _ List.mem_cons_self)
    obtain ⟨t', rest, stored', cp'⟩ := ih (t := u) (moved := moved ++ [w]) stored
      (by rw [List.length_append, List.length_singleton]; omega)
      (by rw [List.length_append, List.length_singleton, cpWordAddress_succ]
          exact fun a ha => writable a (List.mem_cons_of_mem _ ha))
    rw [List.length_append, List.length_singleton, cpWordAddress_succ, List.append_assoc] at stored'
    refine ⟨t', ?_, stored', fun q => ?_⟩
    · rw [List.map_cons, List.cons_append, handshakeCycles]
      simp only [move, show ¬moved.length + 1 = 16 by omega, if_false]
      rw [rest, List.append_assoc]
      rfl
    · rw [cp' q]
      exact (setReplies_cp_congr cp n q).trans (setReplies_setReplies t n _ q)

/-- The words of a store and one more. -/
theorem zip_wordAddresses_succ (start w : Word) (m : Nat) (ws : List Word) :
    (wordAddresses (cpWordAddress start m) (ws ++ [w]).length).zip (ws ++ [w]) =
      (wordAddresses (cpWordAddress start m) ws.length).zip ws ++ [(cpWordAddress start (m + ws.length), w)] := by
  rw [List.length_append, List.length_singleton, wordAddresses_succ, cpWordAddress_add,
    List.zip_append (wordAddresses_length _ _)]
  rfl

/-- An instruction that Execute begins with has stored nothing yet. -/
theorem StcStored.of_offers {n : Reg} {i : Instr} {moved : List Word} {r : State} (h : s.offers n i moved r) :
    StcStored s [] r := by
  have same := offers_withCp h
  refine ⟨by rw [same]; exact .refl s, fun p => ?_⟩
  show (r.withCp s.cp).byteAt p = s.byteAt p
  rw [same]

theorem stc_done {n : Reg} {start w : Word} {ws : List Word} {cycle : CpReply} {rs : List CpReply} {moved : List Word}
    (hs : s.memoryInForm) (quiet : s.between = []) (h : StcStored s [] t) (room : moved.length + ws.length < 16)
    (final : EndsBurst cycle w (moved.length + ws.length))
    (writable : ∀ a ∈ wordAddresses (cpWordAddress start moved.length) (ws ++ [w]).length, s.writable false false .word a) :
    ∃ ds u, handshakeCycles n 16 (stcMove start) (ws.map .go ++ cycle :: rs) moved t = .done ds u ∧
      StcStored s ((wordAddresses (cpWordAddress start moved.length) (ws ++ [w]).length).zip (ws ++ [w])) u ∧
      u.cp = (t.setReplies n rs).cp := by
  rw [zip_wordAddresses_succ]
  rw [List.length_append, List.length_singleton, wordAddresses_succ] at writable
  obtain ⟨t', run, stored, cp⟩ := stc_goCycles (n := n) (tail := cycle :: rs) hs quiet h room
    fun a ha => writable a (List.mem_append_left _ ha)
  have count : (moved ++ ws).length = moved.length + ws.length := List.length_append
  have address := writable _ (List.mem_append_right _ List.mem_cons_self)
  rw [cpWordAddress_add] at address
  obtain ⟨u, move, stored', cp'⟩ := stcMove_writable (t := t'.setReplies n rs) (w := w) hs quiet stored address
  exact ⟨_, u, run.trans (handshakeCycles_ends (w := w) (by rw [count]; exact final) (by rw [count]; exact move)), stored',
    cp'.trans (cp rs)⟩

theorem stc_aborts {n : Reg} {start w : Word} {ws : List Word} {cycle : CpReply} {rs : List CpReply} {moved : List Word}
    (hs : s.memoryInForm) (quiet : s.between = []) (h : StcStored s [] t) (room : moved.length + ws.length < 16)
    (accepts : cycle = .go w ∨ cycle = .last w)
    (writable : ∀ a ∈ wordAddresses (cpWordAddress start moved.length) ws.length, s.writable false false .word a)
    (abort : s.writeAborts false false .word (cpWordAddress start (moved.length + ws.length))) :
    ∃ u, handshakeCycles n 16 (stcMove start) (ws.map .go ++ cycle :: rs) moved t = .abort u ∧
      StcStored s ((wordAddresses (cpWordAddress start moved.length) ws.length).zip ws) u ∧
      u.cp = (t.setReplies n rs).cp := by
  obtain ⟨t', run, stored, cp⟩ := stc_goCycles (n := n) (tail := cycle :: rs) hs quiet h room writable
  have count : (moved ++ ws).length = moved.length + ws.length := List.length_append
  obtain ⟨u, move, stored', cp'⟩ := stcMove_aborts (t := t'.setReplies n rs) (w := w) quiet stored abort
  exact ⟨u, run.trans (handshakeCycles_aborts (w := w) accepts (by rw [count]; exact move)), stored', cp'.trans (cp rs)⟩

end Sys2Proof.Machine
end

section
/-! SUPPORT. Proofs: LDC and STC that a coprocessor accepts (R155, R156, R161). -/

namespace Sys2Proof.Machine

variable {s t u : State}

/-! ## The instructions -/

theorem exec_ldc {c : Cond} {y : CpIndexing} {n : Bool} {rn crd cp : Reg} {imm : BitVec 8} {i : Instr}
    (member : i ∈ [Instr.ldc c y n rn crd cp imm, .ldc2 y n rn crd cp imm]) (cond : Cond.holds c s.cpsr = true)
    (external : externalCp cp = true) : exec i s = loadCoprocessor cp i y rn imm s := by
  simp only [List.mem_cons, List.not_mem_nil, or_false] at member
  rcases member with rfl | rfl
  · exact onCond_pass (loadCoprocessor cp (.ldc c y n rn crd cp imm) y rn imm) cond
  · show externalOnly cp (loadCoprocessor cp (.ldc2 y n rn crd cp imm) y rn imm s) = _
    rw [externalOnly, external]
    rfl

theorem exec_stc {c : Cond} {y : CpIndexing} {n : Bool} {rn crd cp : Reg} {imm : BitVec 8} {i : Instr}
    (member : i ∈ [Instr.stc c y n rn crd cp imm, .stc2 y n rn crd cp imm]) (cond : Cond.holds c s.cpsr = true)
    (external : externalCp cp = true) : exec i s = storeCoprocessor cp i y rn imm s := by
  simp only [List.mem_cons, List.not_mem_nil, or_false] at member
  rcases member with rfl | rfl
  · exact onCond_pass (storeCoprocessor cp (.stc c y n rn crd cp imm) y rn imm) cond
  · show externalOnly cp (storeCoprocessor cp (.stc2 y n rn crd cp imm) y rn imm s) = _
    rw [externalOnly, external]
    rfl

/-- What follows the handshake of an LDC or STC: the base, and the next instruction. -/
def writeBackBase (rn : Reg) (newBase : Option Word) : List Word → State → Result := fun _ t =>
  .next (t.setReg? rn newBase).advance

theorem loadCoprocessor_offers {n : Reg} {i : Instr} {y : CpIndexing} {rn : Reg} {imm : BitVec 8} {moved : List Word}
    {r : State} (h : s.offers n i moved r)
    (base : (cpAddress y (s.reg rn) imm).newBase = none ∨ rn ≠ 15) :
    loadCoprocessor n i y rn imm s =
      (handshakeCycles n 16 (ldcMove n (cpAddress y (s.reg rn) imm).address) (s.cpReplies n) moved r).ends i
        (writeBackBase rn (cpAddress y (s.reg rn) imm).newBase) := by
  rw [loadCoprocessor, badBase_none base]
  exact coprocessorInstr_offers h 16 _ _

theorem storeCoprocessor_offers {n : Reg} {i : Instr} {y : CpIndexing} {rn : Reg} {imm : BitVec 8} {moved : List Word}
    {r : State} (h : s.offers n i moved r)
    (base : (cpAddress y (s.reg rn) imm).newBase = none ∨ rn ≠ 15) :
    storeCoprocessor n i y rn imm s =
      (handshakeCycles n 16 (stcMove (cpAddress y (s.reg rn) imm).address) (s.cpReplies n) moved r).ends i
        (writeBackBase rn (cpAddress y (s.reg rn) imm).newBase) := by
  rw [storeCoprocessor, badBase_none base]
  exact coprocessorInstr_offers h 16 _ _

/-! ## The end of a transfer -/

/-- A transfer has completed: the coprocessors are as `c` has them, the base has the new base where the form writes it back. -/
def TransferDone (s : State) (rn : Reg) (newBase : Option Word) (c : Cp) (t : State) : Prop :=
  t.cp = c ∧ t.regs = s.withBase rn newBase ∧ t.cpsr = s.cpsr ∧ WentOn s t ∧ SameSystem s { t with cp := s.cp }

theorem transferDone_of_framed (h : Framed s (u.withCp s.cp)) (regs : u.regs = s.regs) (rn : Reg) (newBase : Option Word) :
    TransferDone s rn newBase (u.setWaiting none).cp (((u.setWaiting none).setReg? rn newBase).advance) := by
  obtain ⟨regs', cpsr, went, system⟩ := storeDone_of_framed h regs rn newBase
  cases newBase <;> exact ⟨rfl, regs', cpsr, went, system⟩

/-- A transfer is kept waiting: the coprocessors are as `c` has them, and nothing else outside memory has changed. -/
def TransferWaits (s : State) (c : Cp) (t : State) : Prop :=
  t.pc = s.pc ∧ t.regs = s.regs ∧ t.cpsr = s.cpsr ∧ t.cp = c ∧ SameSystem s { t with cp := s.cp }

theorem transferWaits_of_framed (h : Framed s (u.withCp s.cp)) (regs : u.regs = s.regs) (w : Option CpWait) :
    TransferWaits s (u.setWaiting w).cp (u.setWaiting w) := ⟨h.pc, regs, h.cpsr, rfl, h.system⟩

theorem setWaiting_byteAt (u : State) (w : Option CpWait) (p : Place) : (u.setWaiting w).byteAt p = u.byteAt p := by
  cases p <;> rfl

theorem transfer_byteAt (u : State) (rn : Reg) (newBase : Option Word) (p : Place) :
    (((u.setWaiting none).setReg? rn newBase).advance).byteAt p = u.byteAt p := by
  rw [State.advance_byteAt, State.setReg?_byteAt, setWaiting_byteAt]

/-- The cycles of a transfer that ends, by their last one: LAST, or GO for the 16th word. -/
theorem ended_cycles {replies rs : List CpReply} {ws all : List Word} {w : Word} {before : Nat}
    (h : replies = ws.map .go ++ .last w :: rs ∧ all = ws ++ [w] ∧ before + ws.length < 16 ∨
      replies = ws.map .go ++ rs ∧ all = ws ∧ ws ≠ [] ∧ before + ws.length = 16) :
    ∃ vs cycle v, replies = vs.map .go ++ cycle :: rs ∧ all = vs ++ [v] ∧ before + vs.length < 16 ∧
      EndsBurst cycle v (before + vs.length) := by
  rcases h with ⟨rfl, rfl, room⟩ | ⟨rfl, rfl, nonempty, full⟩
  · exact ⟨ws, .last w, w, rfl, rfl, room, .inl rfl⟩
  · have split := List.dropLast_append_getLast nonempty
    have count : all.dropLast.length + 1 = all.length := by
      rw [List.length_dropLast]
      have := List.length_pos_iff.mpr nonempty
      omega
    refine ⟨all.dropLast, .go (all.getLast nonempty), all.getLast nonempty, ?_, split.symm, by omega,
      .inr ⟨rfl, by omega⟩⟩
    conv_lhs => rw [← split]
    rw [List.map_append, List.append_assoc]
    rfl

/-! ## LDC -/

theorem ldc_ended {n : Reg} {i : Instr} {y : CpIndexing} {rn : Reg} {imm : BitVec 8} {moved all ws : List Word} {w : Word}
    {rs : List CpReply} {r : State} (quiet : s.between = [])
    (base : (cpAddress y (s.reg rn) imm).newBase = none ∨ rn ≠ 15) (h : s.offers n i moved r)
    (ended : s.cpReplies n = ws.map .go ++ .last w :: rs ∧ all = ws ++ [w] ∧ moved.length + ws.length < 16 ∨
      s.cpReplies n = ws.map .go ++ rs ∧ all = ws ∧ ws ≠ [] ∧ moved.length + ws.length = 16)
    (readable : ∀ a ∈ wordAddresses (cpWordAddress (cpAddress y (s.reg rn) imm).address moved.length) all.length,
      s.readable false .word a) :
    ∃ t, loadCoprocessor n i y rn imm s = .next t ∧
      TransferDone s rn (cpAddress y (s.reg rn) imm).newBase
        (((r.sendWords n (s.ldcWords (cpWordAddress (cpAddress y (s.reg rn) imm).address moved.length) all.length)).setReplies
          n rs).setWaiting none).cp t ∧ SameMemory s t := by
  obtain ⟨vs, cycle, v, replies, rfl, room, final⟩ := ended_cycles ended
  rw [List.length_append, List.length_singleton] at readable ⊢
  obtain ⟨ds, u, run, only, cp⟩ := ldc_done (n := n) (rs := rs) quiet (.of_offers h) room final readable
  rw [loadCoprocessor_offers h base, replies, run, ← setWaiting_cp_congr cp none]
  exact ⟨_, rfl, transferDone_of_framed only.framed only.regs rn _,
    fun p => (transfer_byteAt u rn _ p).trans (only.memory p)⟩

theorem ldc_paused {n : Reg} {i : Instr} {y : CpIndexing} {rn : Reg} {imm : BitVec 8} {moved ws : List Word}
    {rs : List CpReply} {r : State} (quiet : s.between = [])
    (base : (cpAddress y (s.reg rn) imm).newBase = none ∨ rn ≠ 15) (h : s.offers n i moved r)
    (replies : s.cpReplies n = ws.map .go ++ .wait :: rs) (room : moved.length + ws.length < 16)
    (readable : ∀ a ∈ wordAddresses (cpWordAddress (cpAddress y (s.reg rn) imm).address moved.length) ws.length,
      s.readable false .word a) :
    ∃ t, loadCoprocessor n i y rn imm s = .next t ∧
      TransferWaits s
        (((r.sendWords n (s.ldcWords (cpWordAddress (cpAddress y (s.reg rn) imm).address moved.length) ws.length)).setReplies
          n rs).setWaiting (some
            { instr := Code.word (encode i)
              moved := moved ++ s.ldcWords (cpWordAddress (cpAddress y (s.reg rn) imm).address moved.length) ws.length })).cp t ∧
      SameMemory s t := by
  obtain ⟨t, run, only, cp⟩ := ldc_goCycles (n := n) (tail := .wait :: rs) quiet (.of_offers h) room readable
  rw [loadCoprocessor_offers h base, replies, run, ← setWaiting_cp_congr (cp rs)]
  exact ⟨_, rfl, transferWaits_of_framed (u := t.setReplies n rs) only.framed only.regs _,
    fun p => (setWaiting_byteAt _ _ p).trans (only.memory p)⟩

/-! ## STC -/

theorem stc_ended {n : Reg} {i : Instr} {y : CpIndexing} {rn : Reg} {imm : BitVec 8} {moved all ws : List Word} {w : Word}
    {rs : List CpReply} {r : State} (hs : s.memoryInForm) (quiet : s.between = [])
    (base : (cpAddress y (s.reg rn) imm).newBase = none ∨ rn ≠ 15) (h : s.offers n i moved r)
    (ended : s.cpReplies n = ws.map .go ++ .last w :: rs ∧ all = ws ++ [w] ∧ moved.length + ws.length < 16 ∨
      s.cpReplies n = ws.map .go ++ rs ∧ all = ws ∧ ws ≠ [] ∧ moved.length + ws.length = 16)
    (writable : ∀ a ∈ wordAddresses (cpWordAddress (cpAddress y (s.reg rn) imm).address moved.length) all.length,
      s.writable false false .word a) :
    ∃ t, storeCoprocessor n i y rn imm s = .next t ∧
      TransferDone s rn (cpAddress y (s.reg rn) imm).newBase (r.answered n rs).cp t ∧
      ∀ p, t.byteAt p = s.storedWords
        ((wordAddresses (cpWordAddress (cpAddress y (s.reg rn) imm).address moved.length) all.length).zip all) p := by
  obtain ⟨vs, cycle, v, replies, rfl, room, final⟩ := ended_cycles ended
  obtain ⟨ds, u, run, ⟨only, bytes⟩, cp⟩ := stc_done (n := n) (rs := rs) hs quiet (.of_offers h) room final writable
  rw [storeCoprocessor_offers h base, replies, run, State.answered, ← setWaiting_cp_congr cp none]
  exact ⟨_, rfl, transferDone_of_framed only.framed only.regs rn _,
    fun p => (transfer_byteAt u rn _ p).trans (bytes p)⟩

theorem stc_paused {n : Reg} {i : Instr} {y : CpIndexing} {rn : Reg} {imm : BitVec 8} {moved ws : List Word}
    {rs : List CpReply} {r : State} (hs : s.memoryInForm) (quiet : s.between = [])
    (base : (cpAddress y (s.reg rn) imm).newBase = none ∨ rn ≠ 15) (h : s.offers n i moved r)
    (replies : s.cpReplies n = ws.map .go ++ .wait :: rs) (room : moved.length + ws.length < 16)
    (writable : ∀ a ∈ wordAddresses (cpWordAddress (cpAddress y (s.reg rn) imm).address moved.length) ws.length,
      s.writable false false .word a) :
    ∃ t, storeCoprocessor n i y rn imm s = .next t ∧
      TransferWaits s
        ((r.setReplies n rs).setWaiting (some { instr := Code.word (encode i), moved := moved ++ ws })).cp t ∧
      ∀ p, t.byteAt p = s.storedWords
        ((wordAddresses (cpWordAddress (cpAddress y (s.reg rn) imm).address moved.length) ws.length).zip ws) p := by
  obtain ⟨t, run, ⟨only, bytes⟩, cp⟩ := stc_goCycles (n := n) (tail := .wait :: rs) hs quiet (.of_offers h) room writable
  rw [storeCoprocessor_offers h base, replies, run, ← setWaiting_cp_congr (cp rs)]
  exact ⟨_, rfl, transferWaits_of_framed (u := t.setReplies n rs) only.framed only.regs _,
    fun p => (setWaiting_byteAt _ _ p).trans (bytes p)⟩

/-- Settles O46: each cycle with GO or LAST is one word access, in order; the last one ends the handshake, WAIT suspends it. -/
theorem coprocessorTransferResult : Obligations.CoprocessorTransferResult := by
  unfold Obligations.CoprocessorTransferResult
  intro c y n rn crd cp imm moved ws w rs s r cond external quiet m addresses words ended paused base
  refine ⟨fun i member offer all readable => ⟨fun ends => ?_, fun pause same => ?_⟩,
    fun hs i member offer all writable => ⟨fun ends => ?_, fun pause same => ?_⟩⟩
  · rw [exec_ldc member cond external]
    obtain ⟨t, run, ⟨cps, regs, cpsr, went, system⟩, memory⟩ := ldc_ended quiet base offer ends readable
    exact ⟨t, run, cps, regs, cpsr, went, system, memory⟩
  · subst same
    obtain ⟨t, run, ⟨pc, regs, cpsr, cps, system⟩, memory⟩ := ldc_paused quiet base offer pause.1 pause.2 readable
    exact ⟨t, (exec_ldc member cond external).trans run, pc, regs, cpsr, cps, system, memory⟩
  · rw [exec_stc member cond external]
    obtain ⟨t, run, ⟨cps, regs, cpsr, went, system⟩, bytes⟩ := stc_ended hs quiet base offer ends writable
    exact ⟨t, run, cps, regs, cpsr, went, system, bytes⟩
  · subst same
    obtain ⟨t, run, ⟨pc, regs, cpsr, cps, system⟩, bytes⟩ := stc_paused hs quiet base offer pause.1 pause.2 writable
    exact ⟨t, (exec_stc member cond external).trans run, pc, regs, cpsr, cps, system, bytes⟩

end Sys2Proof.Machine
end

section
/-! SUPPORT. Proofs: multiple and coprocessor transfers that abort (R155, R156, R236). -/

namespace Sys2Proof.Machine

variable {s t u : State}

/-! ## Load multiple -/

theorem listRegs_low {n : Nat} {list : BitVec n} {r : Reg} (hn : n ≤ 16) (h : r ∈ listRegs list) : r.toNat < n := by
  simp only [listRegs, List.mem_map, List.mem_filter, List.mem_range] at h
  obtain ⟨k, ⟨hk, -⟩, rfl⟩ := h
  rw [BitVec.toNat_ofNat]
  omega

/-- A load of the registers of a list that its base is not written back into (R237). -/
theorem ldmList_form {c : Cond} {p up w : Bool} {rn : Reg} {regs : List Reg} {x : MultipleForm}
    (h : s.mode4 c s.mode p up w rn regs false = some x) (apart : w = true → rn ∉ regs) :
    ∃ k, ldmList p up w rn regs s = loadMultiple x.bank x.rn x.start x.regs s k := by
  obtain ⟨nonempty, rn15, rfl⟩ := mode4_some h
  have guard : (w && regs.contains rn) = false := by
    cases w with
    | false => rfl
    | true => simpa using apart rfl
  rw [ldmList, multipleGuard_legal nonempty rn15, guard, refuseIf_false]
  exact ⟨_, rfl⟩

/-- Every load multiple reads the words of its form, into the bank of its form. -/
theorem exec_loadMultiple {i : Instr} {x : MultipleForm} (form : s.multipleLoad i = some x)
    (cond : Cond.holds x.cond s.cpsr = true) :
    ∃ k, exec i s = loadMultiple x.bank x.rn x.start x.regs s k := by
  unfold State.multipleLoad at form
  split at form
  next c p up w rn list =>
    split at form
    · cases form
    next apart =>
      obtain ⟨-, -, rfl⟩ := mode4_some form
      obtain ⟨k, run⟩ := ldmList_form form fun hw member => apart ⟨hw, member⟩
      exact ⟨k, (onCond_pass (ldmList p up w rn (listRegs list)) cond).trans run⟩
  next c p up w rn list =>
    split at form
    · cases form
    next legal =>
      rw [not_or] at legal
      obtain ⟨nonempty, rn15, rfl⟩ := mode4_some form
      have guard : (w || s.spsr?.isNone) = false := by rw [eq_false_of_ne_true legal.1, spsr?_isNone legal.2]; rfl
      have run : exec (.ldmUser c p up w rn list) s = multipleGuard (listRegs list).isEmpty rn (userBankGuard w s
          (loadMultiple .usr rn (multipleStart p up (s.reg rn) (listRegs list).length) (listRegs list) s
            fun _ t => .next t.afterUserTransfer.advance)) := by
        show execLdmUser c p up w rn list s = _
        rw [execLdmUser]
        exact onCond_pass _ cond
      rw [run, multipleGuard_legal nonempty rn15, userBankGuard, guard, refuseIf_false]
      exact ⟨_, rfl⟩
  next r list =>
    refine ldmList_form form fun _ member => ?_
    rcases List.mem_append.mp member with low | high
    · exact absurd (listRegs_low (by decide) low) (by decide)
    · cases r
      · cases high
      · exact absurd (List.mem_singleton.mp high) (by decide)
  next rn list =>
    obtain ⟨-, -, rfl⟩ := mode4_some form
    have flag : decide (rn.reg ∉ listRegs list) = !(listRegs list).contains rn.reg := by simp
    rw [flag] at form ⊢
    exact ldmList_form form fun apart => by simpa using apart
  · cases form

theorem exec_ldmReturn {c : Cond} {p up w : Bool} {rn : Reg} {list : BitVec 15} {x : MultipleForm}
    (form : s.mode4 c s.mode p up w rn (listRegs list ++ [15]) false = some x) (cond : Cond.holds x.cond s.cpsr = true)
    (spsr : s.spsr?.isSome = true) (apart : w = true → rn ∉ listRegs list) :
    ∃ k, exec (.ldmReturn c p up w rn list) s = loadMultiple x.bank x.rn x.start x.regs s k := by
  obtain ⟨nonempty, rn15, rfl⟩ := mode4_some form
  have saved : s.spsr?.isNone = false := by rw [← Option.not_isSome, spsr]; rfl
  have guard : (w && (listRegs list ++ [15]).contains rn) = false := by
    cases w with
    | false => rfl
    | true =>
      have outside : rn ∉ listRegs list ++ [15] := by
        rw [List.mem_append, List.mem_singleton]
        exact not_or.mpr ⟨apart rfl, rn15⟩
      simpa using outside
  have run : exec (.ldmReturn c p up w rn list) s = refuseIf s.spsr?.isNone .noSpsr (multipleGuard false rn
      (refuseIf (w && (listRegs list ++ [15]).contains rn) .baseInList
        (loadMultiple s.mode rn (multipleStart p up (s.reg rn) (listRegs list ++ [15]).length) (listRegs list ++ [15]) s
          fun last t => exceptionReturn last
            (multipleWriteBack w up rn (s.reg rn) (listRegs list ++ [15]).length t)))) := by
    show execLdmReturn c p up w rn list s = _
    rw [execLdmReturn]
    exact onCond_pass _ cond
  rw [run, saved, guard, refuseIf_false, refuseIf_false, multipleGuard, decide_eq_false rn15, refuseIf_false, refuseIf_false]
  exact ⟨_, rfl⟩

/-- Of a list with a member that has a property, the first such member. -/
theorem first_with {α : Type} {p : α → Prop} {l : List α} (h : ∃ a ∈ l, p a) :
    ∃ pre a post, l = pre ++ a :: post ∧ p a ∧ ∀ b ∈ pre, ¬p b := by
  classical
  have found : (l.find? fun a => decide (p a)).isSome = true := by simpa using h
  obtain ⟨a, ha⟩ := Option.isSome_iff_exists.mp found
  obtain ⟨pa, pre, post, rfl, none⟩ := List.find?_eq_some_iff_append.mp ha
  exact ⟨pre, a, post, rfl, by simpa using pa, fun b hb => by simpa using none b hb⟩

/-- The reads of a load multiple, one of which takes the Data Abort. -/
theorem readWords_fails {l : List Word} (unwatched : s.unwatched) (quiet : s.between = [])
    (mapped : ∀ a ∈ l, s.mapped (alignTo .word a) = true)
    (fails : ∃ a ∈ l, s.alignFault .word a = true ∨ s.readFails false .word (alignTo .word a) = true) :
    ∃ t, readWords l s = .abort t ∧ ReadOnly s t := by
  obtain ⟨pre, a, post, rfl, why, before⟩ := first_with fails
  refine readWords_aborts quiet (fun b hb => ?_) ⟨unwatched, why.imp_right fun error => ⟨mapped a (by simp), error⟩⟩
  obtain ⟨align, answers⟩ := not_or.mp (before b hb)
  exact ⟨unwatched, eq_false_of_ne_true align, mapped b (by simp [hb]), eq_false_of_ne_true answers⟩

/-- R14 of Abort mode is no register of another mode, and no other register of its own. -/
theorem physIndex_abt_lr {m : Mode} {r : Reg} (r15 : r ≠ 15) (h : physIndex m r = physIndex .abt 14) :
    r = 14 ∧ m = .abt := by
  revert r
  cases m <;> decide

/-- What an aborted load multiple leaves as it was. -/
def LoadMultipleAborted (s : State) (x : MultipleForm) (t : State) : Prop :=
  AbortTaken s t ∧ SameMemory s t ∧
    (∀ k : Fin 30, k ≠ physIndex .abt 14 → (∀ r ∈ x.regs, r ≠ 15 → physIndex x.bank r ≠ k) → t.regs[k] = s.regs[k]) ∧
    (x.rn ≠ 14 ∨ s.mode ≠ .abt → t.regs[physIndex s.mode x.rn] = s.regs[physIndex s.mode x.rn])

theorem loadMultiple_aborts {x : MultipleForm} {k : Word → State → Result} (rn15 : x.rn ≠ 15)
    (h : readWords x.addresses s = .abort u) (only : ReadOnly s u) :
    ∃ t, loadMultiple x.bank x.rn x.start x.regs s k = .next t ∧ LoadMultipleAborted s x t := by
  obtain ⟨t, run, taken, memory, regs⟩ := abortedLoad only x.bank (s.basePlace x.rn) x.regs
  refine ⟨t, ?_, taken, memory,
    fun j hj listed => regs j hj fun r hr r15 same => absurd same (listed r hr r15), fun apart => ?_⟩
  · rw [loadMultiple, show readWords (wordAddresses x.start x.regs.length) s = .abort u from h]
    exact run
  · refine regs _ (fun same => ?_) fun _ _ _ _ => (if_neg rn15).symm
    obtain ⟨rn14, abt⟩ := physIndex_abt_lr rn15 same
    exact apart.elim (· rn14) (· abt)

theorem multipleLoad_base {i : Instr} {x : MultipleForm} (form : s.multipleLoad i = some x) : x.rn ≠ 15 := by
  have key {c : Cond} {bank : Mode} {p up w : Bool} {rn : Reg} {regs : List Reg} {user : Bool}
      (h : s.mode4 c bank p up w rn regs user = some x) : x.rn ≠ 15 := by
    obtain ⟨-, rn15, rfl⟩ := mode4_some h
    exact rn15
  unfold State.multipleLoad at form
  split at form
  · split at form
    · cases form
    · exact key form
  · split at form
    · cases form
    · exact key form
  · exact key form
  · exact key form
  · cases form

theorem load_multiple_aborts {i : Instr} {x : MultipleForm}
    (form : s.multipleLoad i = some x ∨ ∃ c p u w rn list, i = .ldmReturn c p u w rn list ∧ s.spsr?.isSome = true ∧
      (w = true → rn ∉ listRegs list) ∧ s.mode4 c s.mode p u w rn (listRegs list ++ [15]) false = some x)
    (cond : Cond.holds x.cond s.cpsr = true) (unwatched : s.unwatched) (quiet : s.between = [])
    (mapped : ∀ a ∈ x.addresses, s.mapped (alignTo .word a) = true)
    (fails : ∃ a ∈ x.addresses, s.alignFault .word a = true ∨ s.readFails false .word (alignTo .word a) = true) :
    ∃ t, exec i s = .next t ∧ LoadMultipleAborted s x t := by
  obtain ⟨v, read, only⟩ := readWords_fails unwatched quiet mapped fails
  rcases form with load | ⟨c, p, up, w, rn, list, rfl, spsr, apart, load⟩
  · obtain ⟨k, run⟩ := exec_loadMultiple load cond
    rw [run]
    exact loadMultiple_aborts (multipleLoad_base load) read only
  · obtain ⟨k, run⟩ := exec_ldmReturn load cond spsr apart
    obtain ⟨-, rn15, rfl⟩ := mode4_some load
    rw [run]
    exact loadMultiple_aborts rn15 read only

/-! ## Store multiple -/

/-- The words before, at and after one of the addresses of a list. -/
theorem zip_split {α β : Type} {pre post : List α} {a : α} {vs : List β}
    (h : (pre ++ a :: post).length ≤ vs.length) :
    ∃ v, (pre ++ a :: post).zip vs = pre.zip vs ++ (a, v) :: post.zip (vs.drop (pre.length + 1)) := by
  induction pre generalizing vs with
  | nil =>
    cases vs with
    | nil => simp at h
    | cons v vs => exact ⟨v, rfl⟩
  | cons b pre ih =>
    cases vs with
    | nil => simp at h
    | cons v vs =>
      obtain ⟨w, eq⟩ := ih (vs := vs) (by simpa using h)
      exact ⟨w, by simpa using eq⟩

theorem store_multiple_aborts {i : Instr} {x : MultipleForm} {pre post : List Word} {a : Word}
    (form : s.multipleStore i = some x) (cond : Cond.holds x.cond s.cpsr = true) (hs : s.memoryInForm)
    (quiet : s.between = []) (addresses : x.addresses = pre ++ a :: post)
    (writable : ∀ b ∈ pre, s.writable false false .word b) (abort : s.writeAborts false false .word a) :
    ∃ t, exec i s = .next t ∧ AbortedClean s t ∧
      ∀ p, t.byteAt p = s.storedWords (pre.zip (x.regs.map (s.listValue x))) p ∨
        ∃ w ∈ post.zip ((x.regs.map (s.listValue x)).drop (pre.length + 1)),
          t.byteAt p = s.storedByte false .word w.1 w.2 p (s.storedWords (pre.zip (x.regs.map (s.listValue x))) p) := by
  have count : (pre ++ a :: post).length = (x.regs.map (s.listValue x)).length := by
    rw [← addresses, MultipleForm.addresses, wordAddresses_length, List.length_map]
  obtain ⟨v, split⟩ := zip_split count.le
  obtain ⟨u, write, only, bytes⟩ := writeWords_aborts (s := s.takeWord.2)
    (pre := pre.zip (x.regs.map (s.listValue x))) (w := (a, v))
    (post := post.zip ((x.regs.map (s.listValue x)).drop (pre.length + 1))) hs quiet
    (fun w hw => writable w.1 (List.of_mem_zip (a := w.1) (b := w.2) hw).1) abort false
  have framed := (Framed.takeWord s).trans
    (maybeStore_framed only abort.1 (post.zip ((x.regs.map (s.listValue x)).drop (pre.length + 1))))
  refine ⟨_, ?_, .of_framed framed ((maybeStore_regs _ u).trans only.regs), fun p => ?_⟩
  · rw [exec_storeMultiple form cond, State.storeList, addresses, split, write]
    rfl
  · rw [byteAt_dataAbort _ p]
    have old : u.byteAt p = s.storedWords (pre.zip (x.regs.map (s.listValue x))) p := bytes p
    rcases maybeStore_byteAt _ (only.inForm hs) p with kept | ⟨w, member, written⟩
    · exact .inl (kept.trans old)
    · refine .inr ⟨w, member, ?_⟩
      rw [written, old, only.storedByte]
      rfl

/-! ## Coprocessor transfers -/

/-- The Data Abort of a transfer, with the coprocessors as `c` has them. -/
def TransferAborted (s : State) (c : Cp) (t : State) : Prop := AbortedClean s { t with cp := s.cp } ∧ t.cp = c

theorem transferAborted_of_memoryOnly (h : MemoryOnly s (u.withCp s.cp)) :
    TransferAborted s (u.setWaiting none).cp ((u.setWaiting none).raise .dataAbort).lateCancel :=
  ⟨.of_framed h.framed h.regs, rfl⟩

theorem transferAborted_byteAt (u : State) (p : Place) :
    ((u.setWaiting none).raise .dataAbort).lateCancel.byteAt p = u.byteAt p :=
  (byteAt_dataAbort _ p).trans (setWaiting_byteAt u none p)

/-- Settles O32: the reads stop at the first abort; the words before an aborted write are stored, the later ones may be. -/
theorem abortedMultipleTransfer : Obligations.AbortedMultipleTransfer := by
  unfold Obligations.AbortedMultipleTransfer
  refine ⟨fun i x s => load_multiple_aborts, fun i x pre post a s => store_multiple_aborts, ?_⟩
  intro c y n rn crd cp imm moved ws w last rs s r cond external quiet replies accepts room m first pre a base
  have address : a = cpWordAddress m.address (moved.length + ws.length) := cpWordAddress_add m.address _ _
  refine ⟨fun i member offer readable abort => ?_, fun i member offer hs writable abort => ?_⟩
  · rw [address] at abort
    obtain ⟨u, run, only, cps⟩ := ldc_aborts (n := cp) (rs := rs) quiet (.of_offers offer) room accepts readable abort
    rw [exec_ldc member cond external, loadCoprocessor_offers offer base, replies, run]
    obtain ⟨clean, cps'⟩ := transferAborted_of_memoryOnly only.toMemoryOnly
    exact ⟨_, rfl, clean, fun p => (transferAborted_byteAt u p).trans (only.memory p),
      cps'.trans (setWaiting_cp_congr cps none)⟩
  · rw [address] at abort
    obtain ⟨u, run, ⟨only, bytes⟩, cps⟩ :=
      stc_aborts (n := cp) (rs := rs) hs quiet (.of_offers offer) room accepts writable abort
    rw [exec_stc member cond external, storeCoprocessor_offers offer base, replies, run]
    obtain ⟨clean, cps'⟩ := transferAborted_of_memoryOnly only
    exact ⟨_, rfl, clean, cps'.trans (setWaiting_cp_congr cps none), fun p => (transferAborted_byteAt u p).trans (bytes p)⟩

end Sys2Proof.Machine
end

section
/-! SUPPORT. Proofs: a nonsequential fetch (R52, R55, R64, R72). -/

namespace Sys2Proof.Machine

variable {s t u : State}

/-! ## What a fetch leaves as it was -/

theorem FetchOnly.sameSystem (h : FetchOnly s t) : SameSystem s t := by
  have core := h.core
  have err : t.ahb.err = s.ahb.err := by
    rcases h.ahb with same | drained
    · rw [same]
    · rw [drained, Ahb.drain_err]
  constructor
  case ahbErr => exact err
  all_goals rw [core]

theorem FetchOnly.sameMemory (h : FetchOnly s t) : SameMemory s t := by
  have itcm : t.itcm = s.itcm := by rw [h.core]
  have dtcm : t.dtcm = s.dtcm := by rw [h.core]
  have ahb : t.ahb.drain = s.ahb.drain := by
    rcases h.ahb with same | drained
    · rw [same]
    · rw [drained, Ahb.drain_drain]
  intro p
  cases p <;> simp only [State.byteAt, itcm, dtcm, ahb]

theorem fetchAt_nonseq {f : Fetched} {a : Word} (h : fetchAt a s = .ok (f, t)) : t.fetch.nonseq = s.fetch.nonseq := by
  unfold fetchAt at h
  split at h
  · cases h
  next g u read =>
    obtain ⟨-, rfl⟩ := Prod.mk.inj (Except.ok.inj h)
    show u.fetch.nonseq = s.fetch.nonseq
    split at read
    · rw [fetchItcm_fetch read]
    · unfold fetchAhb at read
      simp only at read
      split at read
      · obtain ⟨-, rfl⟩ := Prod.mk.inj (Except.ok.inj read)
        rfl
      · split at read
        · cases read
        · obtain ⟨-, rfl⟩ := Prod.mk.inj (Except.ok.inj read)
          rfl

theorem fetchAhead_nonseq (s : State) : (fetchAhead s).fetch.nonseq = s.fetch.nonseq := by
  unfold fetchAhead
  split
  · rfl
  · simp only
    split
    · rfl
    · split
      · rfl
      next f t fetched => exact fetchAt_nonseq (t := t) fetched

/-! ## The instruction in a word (R55) -/

theorem codeOfWord_eq (thumb big : Bool) (a w : Word) :
    codeOfWord thumb big a w =
      if thumb then .thumb (w.extractLsb' (if a.getLsbD 1 = big then 0 else 16) 16) else .arm w := by
  have half : (takeLanes big .half a w).extractLsb' 0 16 = w.extractLsb' (if a.getLsbD 1 = big then 0 else 16) 16 := by
    have lane : 8 * laneStart big .half a = if a.getLsbD 1 = big then 0 else 16 := by
      unfold laneStart
      split <;> simp_all
    rw [takeLanes, trunc_half_shift, lane]
    apply BitVec.eq_of_getLsbD_eq
    intro k hk
    simp [hk, show k < 32 by omega]
  rw [codeOfWord, half]

/-! ## The fetch after a flush -/

/-- The instruction side of a nonsequential fetch: nothing held, and the settings of CP15 (R72, R131). -/
def State.flushed (s : State) : State :=
  { s with fetch := { nonseq := false, itcmOn := s.cp15.i, big := s.cp15.b, ipbOff := s.cp15.ipbOff, ipb := [], pipe := [] } }

theorem fetchNonseq_eq (s : State) : fetchNonseq s = fetchAt s.fetchAddr s.flushed := rfl

theorem routeFetch_eq (on : Bool) (a : Word) :
    routeFetch on a = if a.toNat < 2 ^ 26 ∧ on = true then .tcm .itcm else .ahb := by
  have top : a.extractLsb' 26 6 = 0 ↔ a.toNat < 2 ^ 26 := by
    rw [BitVec.toNat_eq, BitVec.extractLsb'_toNat, Nat.shiftRight_eq_div_pow]
    show a.toNat / 2 ^ 26 % 2 ^ 6 = 0 ↔ _
    omega
  simp only [routeFetch, Bool.and_eq_true, decide_eq_true_eq, top]

/-- One read of the instruction side, before the debug logic looks at it (R52, R64). -/
def routeFetched (a : Word) (s : State) : FetchResult :=
  match routeFetch s.fetch.itcmOn a with
  | .tcm _ => fetchItcm s.fetch.big a s
  | .ahb => fetchAhb s.fetch.big a s

theorem fetchAt_eq (a : Word) (s : State) :
    fetchAt a s =
      match routeFetched a s with
      | .error x => .error x
      | .ok (f, t) => .ok ({ t.withHits f with bkpt := f.bkpt || t.sharesMark f }, t.noteCycle (t.fetchCycle f)) := rfl

theorem fetchNext_error {x : Stop} (nonseq : s.fetch.nonseq = true) (h : routeFetched s.fetchAddr s.flushed = .error x) :
    fetchNext s = .error x := by
  unfold fetchNext
  rw [if_pos nonseq, fetchNonseq_eq, fetchAt_eq, h]

/-- What a nonsequential fetch delivers: an instruction, its error mark, and the marks of the breakpoint logic. -/
def Delivers (s : State) (code : Code) (err : Bool) : Prop :=
  ∃ f s', fetchNext s = .ok (f, s') ∧ f.addr = s.fetchAddr ∧ f.code = code ∧ f.err = err ∧
    f.bkpt = (s.pins.dbgen && s.pins.dbgiebkpt) ∧ f.hit0 = s.hit0 (s.fetchCycle f) ∧ f.hit1 = s.hit1 (s.fetchCycle f) ∧
    s'.regs = s.regs ∧ s'.pc = s.pc ∧ s'.cpsr = s.cpsr ∧ s'.fetch.nonseq = false ∧ SameSystem s s' ∧ SameMemory s s'

/-- A read that leaves the comparators as they were delivers what it has read. -/
theorem delivers_of_routeFetched {f : Fetched} (nonseq : s.fetch.nonseq = true)
    (h : routeFetched s.fetchAddr s.flushed = .ok (f, t)) (addr : f.addr = s.fetchAddr)
    (bkpt : f.bkpt = (s.pins.dbgen && s.pins.dbgiebkpt))
    (core : t = { s with fetch := t.fetch, ahb := t.ahb }) (empty : t.fetch.pipe = []) (sequential : t.fetch.nonseq = false) :
    Delivers s f.code f.err := by
  have mark : t.sharesMark f = false := by simp [State.sharesMark, empty]
  have cycle : t.fetchCycle f = s.fetchCycle f := by rw [core]; rfl
  have hit0 (x : Seen) : t.hit0 x = s.hit0 x := by rw [core]; rfl
  have hit1 (x : Seen) : t.hit1 x = s.hit1 x := by rw [core]; rfl
  have next : fetchNext s = .ok ({ t.withHits f with bkpt := f.bkpt || t.sharesMark f },
      fetchAhead (fetchAhead ((t.noteCycle (t.fetchCycle f)).setPipe
        ({ t.withHits f with bkpt := f.bkpt || t.sharesMark f } ::
          ((t.noteCycle (t.fetchCycle f)).fetch.pipe.drop 1).take 2)))) := by
    unfold fetchNext
    rw [if_pos nonseq, fetchNonseq_eq, fetchAt_eq, h]
  have frame := fetchNext_frame next
  refine ⟨_, _, next, addr, rfl, rfl, ?_, ?_, ?_, by rw [frame.core], by rw [frame.core], by rw [frame.core], ?_,
    frame.sameSystem, frame.sameMemory⟩
  · rw [mark, Bool.or_false, bkpt]
  · show t.hit0 (t.fetchCycle f) = _
    rw [cycle, hit0]
    rfl
  · show t.hit1 (t.fetchCycle f) = _
    rw [cycle, hit1]
    rfl
  · rw [fetchAhead_nonseq, fetchAhead_nonseq]
    exact sequential

/-! ## From the ITCM -/

theorem routeFetched_itcm (route : s.fetchAddr.toNat < 2 ^ 26 ∧ s.cp15.i = true) :
    routeFetched s.fetchAddr s.flushed = fetchItcm s.cp15.b s.fetchAddr s.flushed := by
  have itcm : routeFetch s.flushed.fetch.itcmOn s.fetchAddr = .tcm .itcm := (routeFetch_eq _ _).trans (if_pos route)
  rw [routeFetched, itcm]
  rfl

theorem fetchItcm_hangs {big : Bool} {a : Word} (problem : s.tcmProblem .itcm = none) (hung : s.pins.itcmHung = true) :
    fetchItcm big a s = .error (.fault .accessNeverCompletes) := by
  rw [fetchItcm, problem]
  simp [hung, fetchHangs]

theorem fetchItcm_empty {big : Bool} {a : Word} (problem : s.tcmProblem .itcm = none) (free : s.pins.itcmHung = false)
    (empty : s.itcm.buf = []) :
    fetchItcm big a s =
      .ok ({ addr := a, code := codeOfWord s.thumb big a (s.itcm.mem.readWord (s.tcmWord .itcm a))
             err := s.itcm.err.contains (s.tcmWord .itcm a), bkpt := s.pins.fetchMark, hit0 := false, hit1 := false
             raw := s.itcm.rawLanes (s.tcmWord .itcm a) (codeLanes s.thumb big a) }, s) := by
  have pending : decide (s.itcm.bufferedLanes (s.tcmWord .itcm a) ≠ 0) = false := by simp [Tcm.bufferedLanes, empty]
  rw [fetchItcm, problem]
  simp only [free, pending, Bool.false_eq_true, if_false]

/-! ## From the AHB -/

theorem routeFetched_ahb (route : ¬(s.fetchAddr.toNat < 2 ^ 26 ∧ s.cp15.i = true)) :
    routeFetched s.fetchAddr s.flushed = fetchAhb s.cp15.b s.fetchAddr s.flushed := by
  have ahb : routeFetch s.flushed.fetch.itcmOn s.fetchAddr = .ahb := (routeFetch_eq _ _).trans (if_neg route)
  rw [routeFetched, ahb]
  rfl

theorem fetchAhb_hangs {big : Bool} {a : Word} (empty : s.fetch.ipb = []) (hung : s.pins.ahbHung = true) :
    fetchAhb big a s = .error (.fault .accessNeverCompletes) := by
  simp [fetchAhb, empty, hung, fetchHangs]

theorem fetchAhb_empty {big : Bool} {a : Word} (empty : s.fetch.ipb = []) (free : s.pins.ahbHung = false) :
    ∃ l, fetchAhb big a s =
      .ok (s.drainAhb.ofIpb big a (s.drainAhb.ipbWord (a &&& ~~~3)), s.drainAhb.setIpb l) := by
  simp only [fetchAhb, empty, List.dropWhile_nil, free, Bool.false_eq_true, if_false]
  exact ⟨_, rfl⟩

/-- Settles O49: the fetch reads the word by its route; the reading ahead that follows it touches nothing a program sees. -/
theorem fetchReadsMemory : Obligations.FetchReadsMemory := by
  unfold Obligations.FetchReadsMemory
  intro s nonseq a code fetched
  have delivered {w : Word} {err : Bool} (h : Delivers s (codeOfWord s.thumb s.cp15.b a w) err) : fetched w err := by
    rw [codeOfWord_eq] at h
    exact h
  split
  next route =>
    intro problem
    have read := routeFetched_itcm route
    refine ⟨fun hung => ?_, fun free empty => ?_⟩
    · exact fetchNext_error nonseq (read.trans (fetchItcm_hangs problem hung))
    · have fetch := fetchItcm_empty (s := s.flushed) (big := s.cp15.b) (a := s.fetchAddr) problem free empty
      exact delivered (delivers_of_routeFetched nonseq (read.trans fetch) rfl rfl rfl rfl rfl)
  next route =>
    have read := routeFetched_ahb route
    refine ⟨fun hung => ?_, fun free => ?_⟩
    · exact fetchNext_error nonseq (read.trans (fetchAhb_hangs rfl hung))
    · obtain ⟨l, fetch⟩ := fetchAhb_empty (s := s.flushed) (big := s.cp15.b) (a := s.fetchAddr) rfl free
      have word : wordNumber (a &&& ~~~3) = a.toNat / 4 := by
        show (alignTo .word a).toNat / 4 = _
        rw [toNat_alignWord]
        omega
      have answer (v : Word) : s.ahb.drain.error .fetch (!s.privileged) v = s.ahb.error .fetch (!s.privileged) v := by
        simp [Ahb.error]
      have result := delivers_of_routeFetched nonseq (read.trans fetch) rfl rfl rfl rfl rfl
      rw [← word, ← answer]
      exact delivered result

end Sys2Proof.Machine
end

section
/-! SUPPORT. Proofs: the encodings and the forms of which the spec makes no claim (R113, R116, R126, R130, R137, R139, R168). -/

namespace Sys2Proof.Machine

variable {s t u : State}

/-! ## Coprocessor forms of U-G14 -/

/-- An UNPREDICTABLE form stops once a coprocessor accepts it (entry 45). -/
theorem coprocessorInstr_bad {n : Reg} {i : Instr} {moved : List Word} {r : State} {limit : Nat} {why : Refusal}
    {move : Transfer} {k : List Word → State → Result} {reply : CpReply} {word : Word} {more : List CpReply}
    (offer : s.offers n i moved r) (replies : s.cpReplies n = reply :: more) (accepts : reply = .go word ∨ reply = .last word) :
    coprocessorInstr n i limit (unlessBad (some why) move) k s = .refused why := by
  rw [coprocessorInstr_offers offer, replies]
  rcases accepts with rfl | rfl <;> rfl

theorem usesR15_of_mem {rs : List Reg} (h : 15 ∈ rs) : usesR15 rs = true := List.contains_iff_mem.mpr h

theorem badR15_of_mem {rs : List Reg} (h : 15 ∈ rs) : badR15 (usesR15 rs) = some .r15Operand := by
  rw [usesR15_of_mem h]
  rfl

theorem badBase_pc {m : Addressed} (h : m.newBase ≠ none) : badBase m 15 = some .r15Operand := by
  rw [badBase, Option.isSome_iff_ne_none.mpr h]
  rfl

/-! ## Writes of the system registers -/

theorem cp15Write_privileged {c : Cond} {rd : Reg} {write : Word → State → Checked} (cond : Cond.holds c s.cpsr = true)
    (privileged : s.privileged = true) (rd15 : rd ≠ 15) :
    cp15Write c rd write s = checkedDone (write (s.reg rd) s) := by
  have noPc : usesR15 [rd] = false := by
    simp only [usesR15, List.contains_cons, List.contains_nil, Bool.or_false, beq_eq_false_iff_ne]
    exact rd15.symm
  rw [cp15Write, cp15Op, onCond_pass _ cond, if_pos privileged, noPc]
  rfl

/-- A write that a rule excludes. -/
theorem cp15Write_refused {c : Cond} {rd : Reg} {write : Word → State → Checked} {why : Refusal}
    (cond : Cond.holds c s.cpsr = true) (privileged : s.privileged = true) (rd15 : rd ≠ 15)
    (h : write (s.reg rd) s = .error (.refuse why)) : cp15Write c rd write s = .refused why := by
  rw [cp15Write_privileged cond privileged rd15, h]
  rfl

theorem enableGuard_absent {side : Side} {k : Checked} (absent : s.pins.tcmSize side = 0) :
    enableGuard side true s k = .error (.refuse .tcmAbsent) := by
  simp [enableGuard, absent, failIf]

theorem enableGuard_bist {side : Side} {k : Checked} (exists_ : s.pins.tcmSize side ≠ 0)
    (bist : (s.bist side).enable = true) : enableGuard side true s k = .error (.refuse .bistRules) := by
  rw [enableGuard, decide_eq_false exists_, bist]
  rfl

theorem enableGuard_buffer {side : Side} {k : Checked} (on : s.cp15.tcmOn side = true) (buffer : (s.tcm side).buf ≠ []) :
    enableGuard side false s k = .error (.refuse .tcmBufferNotEmpty) := by
  rw [enableGuard, on, List.isEmpty_eq_false_iff.mpr buffer]
  rfl

/-- A new value for a TCM enable that no rule excludes (R68, R130). -/
theorem enableGuard_pass {side : Side} {on : Bool} {k : Checked}
    (h : on = true ∧ s.pins.tcmSize side ≠ 0 ∧ (s.bist side).enable = false ∨
      on = false ∧ (s.cp15.tcmOn side = false ∨ (s.tcm side).buf = [])) : enableGuard side on s k = k := by
  rcases h with ⟨rfl, exists_, bist⟩ | ⟨rfl, off | empty⟩
  · rw [enableGuard, decide_eq_false exists_, bist]
    rfl
  · rw [enableGuard, off]
    rfl
  · rw [enableGuard, empty, List.isEmpty_nil, Bool.not_true, Bool.and_false]
    rfl

theorem writeConfig_reserved {v : Word} (h : v &&& 0xFFF8FFF9 ≠ 0) :
    writeConfig v s = .error (.refuse .cp15ReservedBits) := by
  have mask : ~~~configMask = 0xFFF8FFF9 := by decide
  rw [writeConfig, mask, decide_eq_true h]
  rfl

theorem bistWriteControl_reserved {v : Word} (h : v &&& 0xFC18FC18 ≠ 0) :
    bistWriteControl v s = .error (.refuse .cp15ReservedBits) := by
  rw [bistWriteControl, decide_eq_true h]
  rfl

/-- What the Control Register refuses for one of the TCMs, `on` being the new value of its enable. -/
theorem writeControl_itcm {v : Word} {why : Refusal}
    (h : ∀ k, enableGuard .itcm (v.getLsbD 12) s k = .error (.refuse why)) : writeControl v s = .error (.refuse why) := h _

theorem writeControl_dtcm {v : Word} {why : Refusal} (pass : ∀ k, enableGuard .itcm (v.getLsbD 12) s k = k)
    (h : ∀ k, enableGuard .dtcm (v.getLsbD 2) s k = .error (.refuse why)) : writeControl v s = .error (.refuse why) := by
  rw [writeControl, pass, h]

/-! ## The instructions -/

theorem coprocessorForms_stop {c : Cond} {x : Bool} {lo : BitVec 8} {o3 op2 : BitVec 3} {o4 : BitVec 4}
    {rn rd rm cp : Reg} {a : CpIndexing} {moved : List Word} {reply : CpReply} {word : Word} {more : List CpReply} {r : State}
    (cond : Cond.holds c s.cpsr = true) (external : externalCp cp = true) (replies : s.cpReplies cp = reply :: more)
    (accepts : reply = .go word ∨ reply = .last word) :
    (rd = 15 → ∀ i ∈ [Instr.mcr c o3 rn rd cp op2 rm, .mcr2 o3 rn rd cp op2 rm], s.offers cp i moved r →
      exec i s = .refused .r15Operand) ∧
    (rn = 15 ∨ rd = 15 → ∀ i ∈ [Instr.mcrr c rn rd cp o4 rm, .mrrc c rn rd cp o4 rm], s.offers cp i moved r →
      exec i s = .refused .r15Operand) ∧
    (rn ≠ 15 → rd = rn → s.offers cp (.mrrc c rn rd cp o4 rm) moved r →
      exec (.mrrc c rn rd cp o4 rm) s = .refused .registerClash) ∧
    ((cpAddress a (s.reg 15) lo).newBase ≠ none → ∀ i ∈ [Instr.ldc c a x 15 rd cp lo, .ldc2 a x 15 rd cp lo,
      .stc c a x 15 rd cp lo, .stc2 a x 15 rd cp lo], s.offers cp i moved r → exec i s = .refused .r15Operand) := by
  have uncond (k : Result) : externalOnly cp k = k := by rw [externalOnly, external]; rfl
  refine ⟨?_, ?_, ?_, ?_⟩
  · rintro rfl i member offer
    have run : moveToCoprocessor cp i [15] s = .refused .r15Operand := by
      rw [moveToCoprocessor, badR15_of_mem List.mem_cons_self]
      exact coprocessorInstr_bad offer replies accepts
    simp only [List.mem_cons, List.not_mem_nil, or_false] at member
    rcases member with rfl | rfl
    · exact (onCond_pass (moveToCoprocessor cp _ [15]) cond).trans run
    · exact (uncond _).trans run
  · intro pc i member offer
    have mem : (15 : Reg) ∈ [rn, rd] := by
      rw [List.mem_cons, List.mem_singleton]
      exact pc.imp Eq.symm Eq.symm
    simp only [List.mem_cons, List.not_mem_nil, or_false] at member
    rcases member with rfl | rfl
    · refine (onCond_pass (moveToCoprocessor cp _ [rd, rn]) cond).trans ?_
      have mem' : (15 : Reg) ∈ [rd, rn] := by
        rw [List.mem_cons, List.mem_singleton]
        exact pc.symm.imp Eq.symm Eq.symm
      rw [moveToCoprocessor, badR15_of_mem mem']
      exact coprocessorInstr_bad offer replies accepts
    · refine (onCond_pass (moveTwoFromCoprocessor cp _ rd rn) cond).trans ?_
      rw [moveTwoFromCoprocessor, if_pos (usesR15_of_mem mem)]
      exact coprocessorInstr_bad offer replies accepts
  · rintro rn15 rfl offer
    refine (onCond_pass (moveTwoFromCoprocessor cp _ rd rd) cond).trans ?_
    have noPc : usesR15 [rd, rd] = false := by
      simp only [usesR15, List.contains_cons, List.contains_nil, Bool.or_false, Bool.or_self, beq_eq_false_iff_ne]
      exact rn15.symm
    rw [moveTwoFromCoprocessor, noPc, if_neg Bool.false_ne_true, if_pos rfl]
    exact coprocessorInstr_bad offer replies accepts
  · intro base i member offer
    have load : loadCoprocessor cp i a 15 lo s = .refused .r15Operand := by
      rw [loadCoprocessor, badBase_pc base]
      exact coprocessorInstr_bad offer replies accepts
    have store : storeCoprocessor cp i a 15 lo s = .refused .r15Operand := by
      rw [storeCoprocessor, badBase_pc base]
      exact coprocessorInstr_bad offer replies accepts
    simp only [List.mem_cons, List.not_mem_nil, or_false] at member
    rcases member with rfl | rfl | rfl | rfl
    · exact (onCond_pass (loadCoprocessor cp _ a 15 lo) cond).trans load
    · exact (uncond _).trans load
    · exact (onCond_pass (storeCoprocessor cp _ a 15 lo) cond).trans store
    · exact (uncond _).trans store

/-- The writes of the Control Register that R68 and R130 exclude, the ITCM looked at first. -/
theorem controlWrites_stop {c : Cond} {rd : Reg} (cond : Cond.holds c s.cpsr = true) (privileged : s.privileged = true)
    (rd15 : rd ≠ 15) :
    let v := s.reg rd
    (v.getLsbD 12 = true → s.pins.itcmSize = 0 → exec (.mcrControl c rd) s = .refused .tcmAbsent) ∧
    (v.getLsbD 12 = true → s.pins.itcmSize ≠ 0 → s.cp15.bistI.enable = true →
      exec (.mcrControl c rd) s = .refused .bistRules) ∧
    (v.getLsbD 12 = false → s.cp15.i = true → s.itcm.buf ≠ [] →
      exec (.mcrControl c rd) s = .refused .tcmBufferNotEmpty) ∧
    ((v.getLsbD 12 = true ∧ s.pins.itcmSize ≠ 0 ∧ s.cp15.bistI.enable = false ∨
        v.getLsbD 12 = false ∧ (s.cp15.i = false ∨ s.itcm.buf = [])) →
      (v.getLsbD 2 = true → s.pins.dtcmSize = 0 → exec (.mcrControl c rd) s = .refused .tcmAbsent) ∧
      (v.getLsbD 2 = true → s.pins.dtcmSize ≠ 0 → s.cp15.bistD.enable = true →
        exec (.mcrControl c rd) s = .refused .bistRules) ∧
      (v.getLsbD 2 = false → s.cp15.d = true → s.dtcm.buf ≠ [] →
        exec (.mcrControl c rd) s = .refused .tcmBufferNotEmpty)) := by
  have refused {why : Refusal} (h : writeControl (s.reg rd) s = .error (.refuse why)) :
      exec (.mcrControl c rd) s = .refused why := cp15Write_refused cond privileged rd15 h
  refine ⟨fun on absent => ?_, fun on exists_ bist => ?_, fun off enabled buffer => ?_, fun legal => ?_⟩
  · exact refused (writeControl_itcm fun _ => by rw [on]; exact enableGuard_absent absent)
  · exact refused (writeControl_itcm fun _ => by rw [on]; exact enableGuard_bist exists_ bist)
  · exact refused (writeControl_itcm fun _ => by rw [off]; exact enableGuard_buffer enabled buffer)
  · have pass (k : Checked) : enableGuard .itcm ((s.reg rd).getLsbD 12) s k = k := enableGuard_pass legal
    refine ⟨fun on absent => ?_, fun on exists_ bist => ?_, fun off enabled buffer => ?_⟩
    · exact refused (writeControl_dtcm pass fun _ => by rw [on]; exact enableGuard_absent absent)
    · exact refused (writeControl_dtcm pass fun _ => by rw [on]; exact enableGuard_bist exists_ bist)
    · exact refused (writeControl_dtcm pass fun _ => by rw [off]; exact enableGuard_buffer enabled buffer)

/-- Settles O47: each of these runs into the guard that refuses it. -/
theorem claimlessFormsStop : Obligations.ClaimlessFormsStop := by
  unfold Obligations.ClaimlessFormsStop
  intro c x y z u b7 b6 b5 b4 b28 b21 b13 b12 b10 lo o3 op2 o4 rn rd rs rm cp a moved reply word more s r
  refine ⟨?_, fun internal => ?_, fun cond => ⟨?_, ?_, fun external replies accepts =>
    coprocessorForms_stop cond external replies accepts, fun privileged rd15 => ⟨fun reserved => ?_, fun reserved => ?_,
      controlWrites_stop cond privileged rd15⟩⟩⟩
  · simp only [List.forall_mem_cons]
    exact ⟨rfl, rfl, rfl, rfl, rfl, by simp⟩
  · have refused (k : Result) : externalOnly cp k = .refused .internalCoprocessor := by rw [externalOnly, internal]; rfl
    simp only [List.forall_mem_cons]
    exact ⟨refused _, refused _, refused _, refused _, refused _, by simp⟩
  · have refused : onCond c (fun _ => .refused .unallocated) s = .refused .unallocated := onCond_pass _ cond
    simp only [List.forall_mem_cons]
    exact ⟨refused, refused, refused, refused, by simp⟩
  · have refused : onCond c (fun _ => .refused .internalCoprocessor) s = .refused .internalCoprocessor := onCond_pass _ cond
    simp only [List.forall_mem_cons]
    exact ⟨refused, refused, refused, refused, by simp⟩
  · exact cp15Write_refused cond privileged rd15 (writeConfig_reserved reserved)
  · exact cp15Write_refused cond privileged rd15 (bistWriteControl_reserved reserved)

end Sys2Proof.Machine
end

section
/-! SUPPORT. Proofs: the fields of a code, and what each format of the encoder says of them (R101 to R111, R115). -/

namespace Sys2Proof

/-! ## Joined and cut bit fields -/

/-- Two fields side by side. -/
theorem append_eq_iff {n m : Nat} {a : BitVec n} {b : BitVec m} {x : BitVec (n + m)} :
    a ++ b = x ↔ a = x.extractLsb' m n ∧ b = x.extractLsb' 0 m := by
  constructor
  · rintro rfl
    exact ⟨BitVec.extractLsb'_append_eq_left.symm, BitVec.extractLsb'_append_eq_right.symm⟩
  · rintro ⟨rfl, rfl⟩
    exact BitVec.extractLsb'_append_extractLsb'

theorem ofBool_eq_iff {b : Bool} {x : BitVec 1} : BitVec.ofBool b = x ↔ b = x.getLsbD 0 := by
  revert b x
  decide

theorem nib_eq_iff {a b c d : Bool} {x : BitVec 4} :
    nib a b c d = x ↔ a = x.getLsbD 3 ∧ b = x.getLsbD 2 ∧ c = x.getLsbD 1 ∧ d = x.getLsbD 0 := by
  revert a b c d x
  decide

theorem extractLsb'_one_bit {w : Nat} (x : BitVec w) (k : Nat) : (x.extractLsb' k 1).getLsbD 0 = x.getLsbD k := by
  simp

theorem ofBool_getLsbD {w : Nat} (x : BitVec w) (k : Nat) : BitVec.ofBool (x.getLsbD k) = x.extractLsb' k 1 :=
  ofBool_eq_iff.mpr (extractLsb'_one_bit x k).symm

/-- A cut of a cut is a cut. -/
theorem extractLsb'_extractLsb' {w : Nat} {x : BitVec w} {start len start' len' : Nat} (h : start + len ≤ len') :
    (x.extractLsb' start' len').extractLsb' start len = x.extractLsb' (start' + start) len := by
  ext j hj
  simp [show start + j < len' by omega, Nat.add_assoc]

/-! ## The fields of a word and of a halfword -/

theorem ArmWord.toBits_ofBits (w : BitVec 32) : (ArmWord.ofBits w).toBits = w := by
  simp only [ArmWord.toBits, ArmWord.ofBits, nib, ofBool_getLsbD, BitVec.extractLsb'_append_extractLsb'_eq_extractLsb']
  exact BitVec.extractLsb'_eq_self

theorem ThumbWord.toBits_ofBits (w : BitVec 16) : (ThumbWord.ofBits w).toBits = w := by
  simp only [ThumbWord.toBits, ThumbWord.ofBits, nib, ofBool_getLsbD, BitVec.extractLsb'_append_extractLsb'_eq_extractLsb']
  exact BitVec.extractLsb'_eq_self

theorem nib_bits (a b c d : Bool) : (nib a b c d).getLsbD 3 = a ∧ (nib a b c d).getLsbD 2 = b ∧
    (nib a b c d).getLsbD 1 = c ∧ (nib a b c d).getLsbD 0 = d := by
  obtain ⟨h3, h2, h1, h0⟩ := nib_eq_iff.mp (Eq.refl (nib a b c d))
  exact ⟨h3.symm, h2.symm, h1.symm, h0.symm⟩

theorem ArmWord.ofBits_toBits (f : ArmWord) : ArmWord.ofBits f.toBits = f := by
  cases f
  simp (disch := decide) only [ArmWord.ofBits, ArmWord.toBits, BitVec.getLsbD_append, nib_bits, Nat.reduceLT, Nat.reduceSub,
    if_true, if_false, BitVec.extractLsb'_append_eq_of_add_le, BitVec.extractLsb'_append_eq_of_le, BitVec.extractLsb'_eq_self]

theorem ThumbWord.ofBits_toBits (f : ThumbWord) : ThumbWord.ofBits f.toBits = f := by
  cases f
  simp (disch := decide) only [ThumbWord.ofBits, ThumbWord.toBits, BitVec.getLsbD_append, BitVec.getLsbD_ofBool, nib_bits,
    Nat.reduceLT, Nat.reduceSub, if_true, if_false, decide_true, Bool.true_and, BitVec.extractLsb'_append_eq_of_add_le,
    BitVec.extractLsb'_append_eq_of_le, BitVec.extractLsb'_eq_self]

theorem Code.fields_toCode (f : Fields) : f.toCode.fields = f := by
  cases f with
  | arm f => exact congrArg Fields.arm f.ofBits_toBits
  | thumb f => exact congrArg Fields.thumb f.ofBits_toBits

theorem Code.toCode_fields (k : Code) : k.fields.toCode = k := by
  cases k with
  | arm w => exact congrArg Code.arm (ArmWord.toBits_ofBits w)
  | thumb h => exact congrArg Code.thumb (ThumbWord.toBits_ofBits h)

/-! ## The small field types (R100, R102, R106, R155) -/

theorem Cond.ofBits_eq_some {b : BitVec 4} {c : Cond} : Cond.ofBits b = some c ↔ b = c.bits := by
  cases c <;> revert b <;> decide

@[simp] theorem Cond.ofBits_bits (c : Cond) : Cond.ofBits c.bits = some c := Cond.ofBits_eq_some.mpr rfl

theorem Cond.ofBits_eq_none {b : BitVec 4} : Cond.ofBits b = none ↔ b = 15 := by
  revert b
  decide

theorem ShiftKind.ofBits_eq_iff {b6 b5 : Bool} {k : ShiftKind} : ShiftKind.ofBits b6 b5 = k ↔ b6 = k.hi ∧ b5 = k.lo := by
  cases k <;> revert b6 b5 <;> decide

theorem CpIndexing.ofBits_eq_some {p u w : Bool} {a : CpIndexing} :
    CpIndexing.ofBits p u w = some a ↔ p = a.p ∧ u = a.u ∧ w = a.w := by
  cases a <;> revert p u w <;> decide +revert

theorem CpIndexing.ofBits_eq_none {p u w : Bool} :
    CpIndexing.ofBits p u w = none ↔ p = false ∧ u = false ∧ w = false := by
  revert p u w
  decide

/-! ## The fields that span several parts of an ARM word -/

section
variable {f : ArmWord}

theorem ArmWord.imm8_eq_iff {x : BitVec 8} : f.imm8 = x ↔
    f.b7 = x.getLsbD 7 ∧ f.b6 = x.getLsbD 6 ∧ f.b5 = x.getLsbD 5 ∧ f.b4 = x.getLsbD 4 ∧ f.rm = x.extractLsb' 0 4 := by
  rw [ArmWord.imm8, append_eq_iff, nib_eq_iff]
  simp [and_assoc]

theorem ArmWord.imm12_eq_iff {x : BitVec 12} :
    f.imm12 = x ↔ f.rs = x.extractLsb' 8 4 ∧ f.imm8 = x.extractLsb' 0 8 := append_eq_iff

theorem ArmWord.imm16_eq_iff {x : BitVec 16} :
    f.imm16 = x ↔ f.rd = x.extractLsb' 12 4 ∧ f.imm12 = x.extractLsb' 0 12 := append_eq_iff

theorem ArmWord.imm20_eq_iff {x : BitVec 20} : f.imm20 = x ↔
    f.rn = x.extractLsb' 16 4 ∧ f.rd = x.extractLsb' 12 4 ∧ f.imm12 = x.extractLsb' 0 12 := by
  rw [ArmWord.imm20, append_eq_iff, ArmWord.imm16_eq_iff]
  simp [BitVec.extractLsb'_extractLsb'_of_le]

theorem ArmWord.imm24_eq_iff {x : BitVec 24} : f.imm24 = x ↔
    f.b23 = x.getLsbD 23 ∧ f.b22 = x.getLsbD 22 ∧ f.b21 = x.getLsbD 21 ∧ f.b20 = x.getLsbD 20 ∧
      f.imm20 = x.extractLsb' 0 20 := by
  rw [ArmWord.imm24, append_eq_iff, nib_eq_iff]
  simp [and_assoc]

theorem ArmWord.imm28_eq_iff {x : BitVec 28} : f.imm28 = x ↔
    f.b27 = x.getLsbD 27 ∧ f.b26 = x.getLsbD 26 ∧ f.b25 = x.getLsbD 25 ∧ f.b24 = x.getLsbD 24 ∧
      f.imm24 = x.extractLsb' 0 24 := by
  rw [ArmWord.imm28, append_eq_iff, nib_eq_iff]
  simp [and_assoc]

theorem ArmWord.shiftImm_eq_iff {x : BitVec 5} :
    f.shiftImm = x ↔ f.rs = x.extractLsb' 1 4 ∧ f.b7 = x.getLsbD 0 := by
  rw [ArmWord.shiftImm, append_eq_iff, ofBool_eq_iff, extractLsb'_one_bit]

theorem three_eq_iff {a b c : Bool} {x : BitVec 3} : BitVec.ofBool a ++ BitVec.ofBool b ++ BitVec.ofBool c = x ↔
    a = x.getLsbD 2 ∧ b = x.getLsbD 1 ∧ c = x.getLsbD 0 := by
  revert a b c x
  decide

/-! ## The formats of ARM words: when a word has the fields given -/

theorem ArmWord.mk_eq_iff {cond : BitVec 4} {b27 b26 b25 b24 b23 b22 b21 b20 b7 b6 b5 b4 : Bool} {rn rd rs rm : Reg} :
    (⟨cond, b27, b26, b25, b24, b23, b22, b21, b20, rn, rd, rs, b7, b6, b5, b4, rm⟩ : ArmWord) = f ↔
      f.cond = cond ∧ f.b27 = b27 ∧ f.b26 = b26 ∧ f.b25 = b25 ∧ f.b24 = b24 ∧ f.b23 = b23 ∧ f.b22 = b22 ∧ f.b21 = b21 ∧
        f.b20 = b20 ∧ f.rn = rn ∧ f.rd = rd ∧ f.rs = rs ∧ f.b7 = b7 ∧ f.b6 = b6 ∧ f.b5 = b5 ∧ f.b4 = b4 ∧ f.rm = rm := by
  cases f
  simp only [ArmWord.mk.injEq, eq_comm]

variable {cond : BitVec 4} {b27 b26 b25 b24 b23 b22 b21 b20 : Bool} {rn rd rs rm : Reg}

theorem Enc.low8_eq_iff {x : BitVec 8} : Enc.low8 cond b27 b26 b25 b24 b23 b22 b21 b20 rn rd rs x = f ↔
    f.cond = cond ∧ f.b27 = b27 ∧ f.b26 = b26 ∧ f.b25 = b25 ∧ f.b24 = b24 ∧ f.b23 = b23 ∧ f.b22 = b22 ∧ f.b21 = b21 ∧
      f.b20 = b20 ∧ f.rn = rn ∧ f.rd = rd ∧ f.rs = rs ∧ f.imm8 = x := by
  rw [Enc.low8, ArmWord.mk_eq_iff, ArmWord.imm8_eq_iff]

theorem Enc.low12_eq_iff {x : BitVec 12} : Enc.low12 cond b27 b26 b25 b24 b23 b22 b21 b20 rn rd x = f ↔
    f.cond = cond ∧ f.b27 = b27 ∧ f.b26 = b26 ∧ f.b25 = b25 ∧ f.b24 = b24 ∧ f.b23 = b23 ∧ f.b22 = b22 ∧ f.b21 = b21 ∧
      f.b20 = b20 ∧ f.rn = rn ∧ f.rd = rd ∧ f.imm12 = x := by
  rw [Enc.low12, Enc.low8_eq_iff, ArmWord.imm12_eq_iff]

theorem Enc.low20_eq_iff {x : BitVec 20} : Enc.low20 cond b27 b26 b25 b24 b23 b22 b21 b20 x = f ↔
    f.cond = cond ∧ f.b27 = b27 ∧ f.b26 = b26 ∧ f.b25 = b25 ∧ f.b24 = b24 ∧ f.b23 = b23 ∧ f.b22 = b22 ∧ f.b21 = b21 ∧
      f.b20 = b20 ∧ f.imm20 = x := by
  rw [Enc.low20, Enc.low12_eq_iff, ArmWord.imm20_eq_iff]

theorem Enc.imm24_eq_iff {x : BitVec 24} : Enc.imm24 cond b27 b26 b25 b24 x = f ↔
    f.cond = cond ∧ f.b27 = b27 ∧ f.b26 = b26 ∧ f.b25 = b25 ∧ f.b24 = b24 ∧ f.imm24 = x := by
  rw [Enc.imm24, Enc.low20_eq_iff, ArmWord.imm24_eq_iff]

theorem Enc.raw28_eq_iff {x : BitVec 28} : Enc.raw28 cond x = f ↔ f.cond = cond ∧ f.imm28 = x := by
  rw [Enc.raw28, Enc.imm24_eq_iff, ArmWord.imm28_eq_iff]

theorem Enc.top11_eq_iff {x : BitVec 21} : Enc.top11 cond b24 b23 b22 b21 x = f ↔
    f.cond = cond ∧ f.b27 = true ∧ f.b26 = true ∧ f.b25 = false ∧ f.b24 = b24 ∧ f.b23 = b23 ∧ f.b22 = b22 ∧ f.b21 = b21 ∧
      BitVec.ofBool f.b20 ++ f.imm20 = x := by
  rw [Enc.top11, Enc.low20_eq_iff, append_eq_iff, ofBool_eq_iff, extractLsb'_one_bit]

theorem Enc.shiftForm_eq_iff {sh : BitVec 5} {k : ShiftKind} :
    Enc.shiftForm cond b27 b26 b25 b24 b23 b22 b21 b20 rn rd sh k rm = f ↔
    f.cond = cond ∧ f.b27 = b27 ∧ f.b26 = b26 ∧ f.b25 = b25 ∧ f.b24 = b24 ∧ f.b23 = b23 ∧ f.b22 = b22 ∧ f.b21 = b21 ∧
      f.b20 = b20 ∧ f.rn = rn ∧ f.rd = rd ∧ f.shiftImm = sh ∧ ShiftKind.ofBits f.b6 f.b5 = k ∧ f.b4 = false ∧ f.rm = rm := by
  rw [Enc.shiftForm, ArmWord.mk_eq_iff, ArmWord.shiftImm_eq_iff, ShiftKind.ofBits_eq_iff]
  simp only [and_assoc]

theorem Enc.dpRegShift_eq_iff {k : ShiftKind} : Enc.dpRegShift cond b24 b23 b22 b21 b20 rn rd rs k rm = f ↔
    f.cond = cond ∧ f.b27 = false ∧ f.b26 = false ∧ f.b25 = false ∧ f.b24 = b24 ∧ f.b23 = b23 ∧ f.b22 = b22 ∧ f.b21 = b21 ∧
      f.b20 = b20 ∧ f.rn = rn ∧ f.rd = rd ∧ f.rs = rs ∧ f.b7 = false ∧ ShiftKind.ofBits f.b6 f.b5 = k ∧ f.b4 = true ∧
      f.rm = rm := by
  rw [Enc.dpRegShift, ArmWord.mk_eq_iff, ShiftKind.ofBits_eq_iff]
  simp only [and_assoc]

theorem Enc.lshImm_eq_iff {p u w l sb h : Bool} {x : BitVec 8} : Enc.lshImm cond p u w l rn rd sb h x = f ↔
    f.cond = cond ∧ f.b27 = false ∧ f.b26 = false ∧ f.b25 = false ∧ f.b24 = p ∧ f.b23 = u ∧ f.b22 = true ∧ f.b21 = w ∧
      f.b20 = l ∧ f.rn = rn ∧ f.rd = rd ∧ f.rs ++ f.rm = x ∧ f.b7 = true ∧ f.b6 = sb ∧ f.b5 = h ∧ f.b4 = true := by
  rw [Enc.lshImm, ArmWord.mk_eq_iff, append_eq_iff]
  tauto

theorem Enc.bkpt_eq_iff {hi : BitVec 12} {lo : BitVec 4} : Enc.bkpt cond hi lo = f ↔
    f.cond = cond ∧ f.b27 = false ∧ f.b26 = false ∧ f.b25 = false ∧ f.b24 = true ∧ f.b23 = false ∧ f.b22 = false ∧
      f.b21 = true ∧ f.b20 = false ∧ f.rn ++ f.rd ++ f.rs = hi ∧ f.b7 = false ∧ f.b6 = true ∧ f.b5 = true ∧ f.b4 = true ∧
      f.rm = lo := by
  rw [Enc.bkpt, Enc.misc, ArmWord.mk_eq_iff, append_eq_iff, append_eq_iff]
  simp [and_assoc, extractLsb'_extractLsb']

theorem Enc.lsm16_eq_iff {p u sb w l : Bool} {x : BitVec 16} : Enc.lsm16 cond p u sb w l rn x = f ↔
    f.cond = cond ∧ f.b27 = true ∧ f.b26 = false ∧ f.b25 = false ∧ f.b24 = p ∧ f.b23 = u ∧ f.b22 = sb ∧ f.b21 = w ∧
      f.b20 = l ∧ f.rn = rn ∧ f.imm16 = x := by
  rw [Enc.lsm16, Enc.low12_eq_iff, ArmWord.imm16_eq_iff]

theorem Enc.lsm_eq_iff {p u sb w l top : Bool} {x : BitVec 15} : Enc.lsm cond p u sb w l rn (top, x) = f ↔
    f.cond = cond ∧ f.b27 = true ∧ f.b26 = false ∧ f.b25 = false ∧ f.b24 = p ∧ f.b23 = u ∧ f.b22 = sb ∧ f.b21 = w ∧
      f.b20 = l ∧ f.rn = rn ∧ f.rd.getLsbD 3 = top ∧ f.rd.extractLsb' 0 3 ++ f.imm12 = x := by
  rw [Enc.lsm, Enc.low12_eq_iff, append_eq_iff, eq_comm (a := f.rd), append_eq_iff, ofBool_eq_iff, extractLsb'_one_bit]
  tauto

theorem Enc.undef011_eq_iff {hi : BitVec 20} : Enc.undef011 cond hi rm = f ↔
    f.cond = cond ∧ f.b27 = false ∧ f.b26 = true ∧ f.b25 = true ∧ nib f.b24 f.b23 f.b22 f.b21 ++ BitVec.ofBool f.b20 ++ f.rn
      ++ f.rd ++ f.rs ++ BitVec.ofBool f.b7 ++ BitVec.ofBool f.b6 ++ BitVec.ofBool f.b5 = hi ∧ f.b4 = true ∧ f.rm = rm := by
  rw [Enc.undef011, ArmWord.mk_eq_iff]
  iterate 7 rw [append_eq_iff]
  simp only [ofBool_eq_iff, nib_eq_iff]
  simp [and_assoc, extractLsb'_extractLsb']

theorem Enc.cpLoadStore_eq_iff {a : CpIndexing} {n l : Bool} {x : BitVec 8} :
    Enc.cpLoadStore cond a n l rn rd rs x = f ↔
    f.cond = cond ∧ f.b27 = true ∧ f.b26 = true ∧ f.b25 = false ∧ CpIndexing.ofBits f.b24 f.b23 f.b21 = some a ∧ f.b22 = n ∧
      f.b20 = l ∧ f.rn = rn ∧ f.rd = rd ∧ f.rs = rs ∧ f.imm8 = x := by
  rw [Enc.cpLoadStore, Enc.low8_eq_iff, CpIndexing.ofBits_eq_some]
  tauto

theorem Enc.cdp_eq_iff {op1 : BitVec 4} {op2 : BitVec 3} : Enc.cdp cond op1 rn rd rs op2 rm = f ↔
    f.cond = cond ∧ f.b27 = true ∧ f.b26 = true ∧ f.b25 = true ∧ f.b24 = false ∧ nib f.b23 f.b22 f.b21 f.b20 = op1 ∧
      f.rn = rn ∧ f.rd = rd ∧ f.rs = rs ∧ f.bits7to5 = op2 ∧ f.b4 = false ∧ f.rm = rm := by
  rw [Enc.cdp, ArmWord.mk_eq_iff, nib_eq_iff, ArmWord.bits7to5, three_eq_iff]
  simp only [and_assoc]

theorem Enc.mcr_eq_iff {l : Bool} {op1 op2 : BitVec 3} : Enc.mcr cond l op1 rn rd rs op2 rm = f ↔
    f.cond = cond ∧ f.b27 = true ∧ f.b26 = true ∧ f.b25 = true ∧ f.b24 = false ∧ f.bits23to21 = op1 ∧ f.b20 = l ∧
      f.rn = rn ∧ f.rd = rd ∧ f.rs = rs ∧ f.bits7to5 = op2 ∧ f.b4 = true ∧ f.rm = rm := by
  rw [Enc.mcr, ArmWord.mk_eq_iff, ArmWord.bits23to21, three_eq_iff, ArmWord.bits7to5, three_eq_iff]
  simp only [and_assoc]

theorem Enc.mcrr_eq_iff {l : Bool} {op : BitVec 4} : Enc.mcrr cond l rn rd rs op rm = f ↔
    f.cond = cond ∧ f.b27 = true ∧ f.b26 = true ∧ f.b25 = false ∧ CpIndexing.ofBits f.b24 f.b23 f.b21 = none ∧
      f.b22 = true ∧ f.b20 = l ∧ f.rn = rn ∧ f.rd = rd ∧ f.rs = rs ∧ nib f.b7 f.b6 f.b5 f.b4 = op ∧ f.rm = rm := by
  rw [Enc.mcrr, ArmWord.mk_eq_iff, nib_eq_iff, CpIndexing.ofBits_eq_none]
  tauto

theorem Enc.cpClass_eq_iff {hi : BitVec 13} {lo : BitVec 8} : Enc.cpClass cond hi rs lo = f ↔
    f.cond = cond ∧ f.b27 = true ∧ f.b26 = true ∧ f.b25 = false ∧
      nib f.b24 f.b23 f.b22 f.b21 ++ BitVec.ofBool f.b20 ++ f.rn ++ f.rd = hi ∧ f.rs = rs ∧ f.imm8 = lo := by
  rw [Enc.cpClass, Enc.low8_eq_iff]
  iterate 3 rw [append_eq_iff]
  simp only [ofBool_eq_iff, nib_eq_iff]
  simp [and_assoc, extractLsb'_extractLsb']

theorem Enc.cpUnalloc_eq_iff {lo : BitVec 8} : Enc.cpUnalloc cond b20 rn rd rs lo = f ↔
    f.cond = cond ∧ f.b27 = true ∧ f.b26 = true ∧ f.b25 = false ∧ CpIndexing.ofBits f.b24 f.b23 f.b21 = none ∧
      f.b22 = false ∧ f.b20 = b20 ∧ f.rn = rn ∧ f.rd = rd ∧ f.rs = rs ∧ f.imm8 = lo := by
  rw [Enc.cpUnalloc, Enc.low8_eq_iff, CpIndexing.ofBits_eq_none]
  tauto

end

/-! ## The formats of Thumb halfwords (R114 to R122) -/

section
variable {f : ThumbWord}

theorem ThumbWord.imm8_eq_iff {x : BitVec 8} : f.imm8 = x ↔
    f.b7 = x.getLsbD 7 ∧ f.b6 = x.getLsbD 6 ∧ f.m = x.extractLsb' 3 3 ∧ f.d = x.extractLsb' 0 3 := by
  rw [ThumbWord.imm8, append_eq_iff, append_eq_iff, append_eq_iff, ofBool_eq_iff, ofBool_eq_iff]
  simp [and_assoc, extractLsb'_extractLsb']

theorem ThumbWord.imm11_eq_iff {x : BitVec 11} : f.imm11 = x ↔
    f.b10 = x.getLsbD 10 ∧ f.b9 = x.getLsbD 9 ∧ f.b8 = x.getLsbD 8 ∧ f.imm8 = x.extractLsb' 0 8 := by
  rw [ThumbWord.imm11, append_eq_iff, three_eq_iff]
  simp [and_assoc]

theorem ThumbWord.imm12_eq_iff {x : BitVec 12} : f.imm12 = x ↔
    f.b11 = x.getLsbD 11 ∧ f.imm11 = x.extractLsb' 0 11 := by
  rw [ThumbWord.imm12, append_eq_iff, ofBool_eq_iff, extractLsb'_one_bit]

theorem ThumbWord.imm5_eq_iff {x : BitVec 5} : f.imm5 = x ↔
    f.b10 = x.getLsbD 4 ∧ f.b9 = x.getLsbD 3 ∧ f.b8 = x.getLsbD 2 ∧ f.b7 = x.getLsbD 1 ∧ f.b6 = x.getLsbD 0 := by
  rw [ThumbWord.imm5, append_eq_iff, append_eq_iff, three_eq_iff, ofBool_eq_iff, ofBool_eq_iff]
  simp [and_assoc]

theorem ThumbWord.mk_eq_iff {b15 b14 b13 b12 b11 b10 b9 b8 b7 b6 : Bool} {m d : LoReg} :
    (⟨b15, b14, b13, b12, b11, b10, b9, b8, b7, b6, m, d⟩ : ThumbWord) = f ↔
      f.b15 = b15 ∧ f.b14 = b14 ∧ f.b13 = b13 ∧ f.b12 = b12 ∧ f.b11 = b11 ∧ f.b10 = b10 ∧ f.b9 = b9 ∧ f.b8 = b8 ∧
        f.b7 = b7 ∧ f.b6 = b6 ∧ f.m = m ∧ f.d = d := by
  cases f
  simp only [ThumbWord.mk.injEq, eq_comm]

variable {b15 b14 b13 b12 b11 b10 b9 b8 b7 b6 : Bool} {m d r : LoReg}

theorem Enc.tImm5_eq_iff {x : BitVec 5} : Enc.tImm5 b15 b14 b13 b12 b11 x m d = f ↔
    f.b15 = b15 ∧ f.b14 = b14 ∧ f.b13 = b13 ∧ f.b12 = b12 ∧ f.b11 = b11 ∧ f.imm5 = x ∧ f.m = m ∧ f.d = d := by
  rw [Enc.tImm5, ThumbWord.mk_eq_iff, ThumbWord.imm5_eq_iff]
  simp only [and_assoc]

theorem Enc.tThree_eq_iff {x : BitVec 3} : Enc.tThree b15 b14 b13 b12 b11 b10 b9 x m d = f ↔
    f.b15 = b15 ∧ f.b14 = b14 ∧ f.b13 = b13 ∧ f.b12 = b12 ∧ f.b11 = b11 ∧ f.b10 = b10 ∧ f.b9 = b9 ∧ f.r8 = x ∧ f.m = m ∧
      f.d = d := by
  rw [Enc.tThree, ThumbWord.mk_eq_iff, ThumbWord.r8, three_eq_iff]
  simp only [and_assoc]

theorem Enc.tByte4_eq_iff {x : BitVec 8} : Enc.tByte4 b15 b14 b13 b12 b11 b10 b9 b8 x = f ↔
    f.b15 = b15 ∧ f.b14 = b14 ∧ f.b13 = b13 ∧ f.b12 = b12 ∧ f.b11 = b11 ∧ f.b10 = b10 ∧ f.b9 = b9 ∧ f.b8 = b8 ∧
      f.imm8 = x := by
  rw [Enc.tByte4, ThumbWord.mk_eq_iff, ThumbWord.imm8_eq_iff]

theorem Enc.tImm8_eq_iff {x : BitVec 8} : Enc.tImm8 b15 b14 b13 b12 b11 r x = f ↔
    f.b15 = b15 ∧ f.b14 = b14 ∧ f.b13 = b13 ∧ f.b12 = b12 ∧ f.b11 = b11 ∧ f.r10 = r ∧ f.imm8 = x := by
  rw [Enc.tImm8, Enc.tByte4_eq_iff, ThumbWord.r10, three_eq_iff]
  simp only [and_assoc]

/-- A register number whose top bit stands apart. -/
theorem cons_eq_iff {b : Bool} {x : BitVec 3} {y : Reg} :
    BitVec.ofBool b ++ x = y ↔ b = y.getLsbD 3 ∧ x = y.extractLsb' 0 3 := by
  rw [append_eq_iff, ofBool_eq_iff, extractLsb'_one_bit]

theorem Enc.tHi_eq_iff {rm rd : Reg} : Enc.tHi b9 b8 rm rd = f ↔
    f.b15 = false ∧ f.b14 = true ∧ f.b13 = false ∧ f.b12 = false ∧ f.b11 = false ∧ f.b10 = true ∧ f.b9 = b9 ∧ f.b8 = b8 ∧
      BitVec.ofBool f.b6 ++ f.m = rm ∧ BitVec.ofBool f.b7 ++ f.d = rd := by
  rw [Enc.tHi, ThumbWord.mk_eq_iff, cons_eq_iff, cons_eq_iff]
  tauto

theorem Enc.tBx_eq_iff {rm : Reg} : Enc.tBx b7 rm d = f ↔
    f.b15 = false ∧ f.b14 = true ∧ f.b13 = false ∧ f.b12 = false ∧ f.b11 = false ∧ f.b10 = true ∧ f.b9 = true ∧ f.b8 = true ∧
      f.b7 = b7 ∧ BitVec.ofBool f.b6 ++ f.m = rm ∧ f.d = d := by
  rw [Enc.tBx, ThumbWord.mk_eq_iff, cons_eq_iff]
  tauto

theorem Enc.tAdjustSp_eq_iff {x : BitVec 7} : Enc.tAdjustSp b7 x = f ↔
    f.b15 = true ∧ f.b14 = false ∧ f.b13 = true ∧ f.b12 = true ∧ f.b11 = false ∧ f.b10 = false ∧ f.b9 = false ∧
      f.b8 = false ∧ f.b7 = b7 ∧ BitVec.ofBool f.b6 ++ f.m ++ f.d = x := by
  rw [Enc.tAdjustSp, ThumbWord.mk_eq_iff, append_eq_iff, append_eq_iff, ofBool_eq_iff]
  simp [and_assoc, extractLsb'_extractLsb']

theorem Enc.tRaw12_eq_iff {x : BitVec 12} : Enc.tRaw12 x = f ↔
    f.b15 = true ∧ f.b14 = false ∧ f.b13 = true ∧ f.b12 = true ∧ f.imm12 = x := by
  rw [Enc.tRaw12, Enc.tByte4_eq_iff, ThumbWord.imm12_eq_iff, ThumbWord.imm11_eq_iff]
  simp

theorem Enc.tBCond_eq_iff {c : Cond} {x : BitVec 8} : Enc.tBCond c x = f ↔
    f.b15 = true ∧ f.b14 = true ∧ f.b13 = false ∧ f.b12 = true ∧ nib f.b11 f.b10 f.b9 f.b8 = c.bits ∧ f.imm8 = x := by
  rw [Enc.tBCond, Enc.tByte4_eq_iff, nib_eq_iff]
  simp only [and_assoc]

theorem Enc.tImm11_eq_iff {x : BitVec 11} : Enc.tImm11 b15 b14 b13 b12 b11 x = f ↔
    f.b15 = b15 ∧ f.b14 = b14 ∧ f.b13 = b13 ∧ f.b12 = b12 ∧ f.b11 = b11 ∧ f.imm11 = x := by
  rw [Enc.tImm11, Enc.tByte4_eq_iff, ThumbWord.imm11_eq_iff]

/-- A suffix of BLX, whose bit 0 stands apart. -/
theorem Enc.tSuffix_eq_iff {x : BitVec 10} {y : BitVec 1} : Enc.tImm11 b15 b14 b13 b12 b11 (x ++ y) = f ↔
    f.b15 = b15 ∧ f.b14 = b14 ∧ f.b13 = b13 ∧ f.b12 = b12 ∧ f.b11 = b11 ∧ f.d.getLsbD 0 = y.getLsbD 0 ∧
      f.imm11.extractLsb' 1 10 = x := by
  have bit0 : f.d.getLsbD 0 = f.imm11.getLsbD 0 := by
    obtain ⟨-, -, -, h⟩ := ThumbWord.imm11_eq_iff.mp (Eq.refl f.imm11)
    obtain ⟨-, -, -, h⟩ := ThumbWord.imm8_eq_iff.mp h
    simp [h]
  have low : y = f.imm11.extractLsb' 0 1 ↔ f.imm11.getLsbD 0 = y.getLsbD 0 := by
    rw [← ofBool_getLsbD, eq_comm, ofBool_eq_iff]
  rw [Enc.tImm11_eq_iff, eq_comm (a := f.imm11), append_eq_iff, low, bit0, eq_comm (a := x)]
  tauto

end

end Sys2Proof
end

section
/-! SUPPORT. Proofs: what the fields of a well-formed instruction decode to (R98 to R122). -/

namespace Sys2Proof

section
variable {f : ArmWord}

/-! ## Where the decoder goes by the condition, and the encodings that its tables leave over (R100, R113, R123, R162) -/

theorem decodeArmFields_pass {c : Cond} (h : f.cond = c.bits) : decodeArmFields f = decodeCond c f := by
  rw [decodeArmFields, h, Cond.ofBits_bits]

theorem decodeArmFields_uncond (h : f.cond = 15) : decodeArmFields f = decodeUncond f := by
  rw [decodeArmFields, Cond.ofBits_eq_none.mpr h]

theorem externalCp_iff {cp : Reg} : externalCp cp = true ↔ cp ≠ 14#4 ∧ cp ≠ 15#4 := by
  simp [externalCp]

theorem decodeP15_unnamed {c : Cond} {l : Bool} {op1 op2 : BitVec 3} {crn rd crm : Reg}
    (h : p15Named l op1 crn op2 crm = false) : decodeP15 c l op1 crn rd op2 crm = .p15Other c l op1 crn rd op2 crm := by
  simp only [p15Named, Bool.and_or_distrib_left, Bool.or_eq_false_iff] at h
  simp only [decodeP15, h, Bool.false_eq_true, if_false]

theorem decodeP14_unnamed {c : Cond} {l : Bool} {op1 op2 : BitVec 3} {crn rd crm : Reg}
    (h : p14Named l op1 crn op2 crm = false) : decodeP14 c l op1 crn rd op2 crm = .p14Other c l op1 crn rd op2 crm := by
  unfold decodeP14
  split
  next p14 =>
    simp only [p14Named, p14, Bool.true_and, Bool.or_eq_false_iff] at h
    simp only [h, Bool.false_eq_true, if_false]
  next => rfl

/-- The codes that R111 and R113 define in the space cond = 1111, by the fields of the word. -/
theorem definedUncond_imm28 (f : ArmWord) : definedUncond f.imm28 =
    ((f.b27 && !f.b26 && f.b25) || (f.b27 && f.b26 && !f.b25) || (f.b27 && f.b26 && f.b25 && !f.b24) ||
      (!f.b27 && f.b26 && !f.b25 && f.b24 && f.b22 && !f.b21 && f.b20 && f.rd == 15) ||
      (!f.b27 && f.b26 && f.b25 && f.b24 && f.b22 && !f.b21 && f.b20 && f.rd == 15 && !f.b4)) := by
  obtain ⟨h27, h26, h25, h24, h⟩ := ArmWord.imm28_eq_iff.mp (Eq.refl f.imm28)
  obtain ⟨-, h22, h21, h20, h⟩ := ArmWord.imm24_eq_iff.mp h
  obtain ⟨-, hd, h⟩ := ArmWord.imm20_eq_iff.mp h
  obtain ⟨-, h⟩ := ArmWord.imm12_eq_iff.mp h
  obtain ⟨-, -, -, h4, -⟩ := ArmWord.imm8_eq_iff.mp h
  simp only [BitVec.getLsbD_extractLsb', Nat.reduceLT, Nat.reduceAdd, decide_true, Bool.true_and] at h22 h21 h20 h4
  simp [definedUncond, h27, h26, h25, h24, h22, h21, h20, hd, h4, extractLsb'_extractLsb']

theorem decodeUncond_undefined (h : definedUncond f.imm28 = false) : decodeUncond f = .unallocUncond f.imm28 := by
  rw [definedUncond_imm28] at h
  unfold decodeUncond
  split <;> simp_all

theorem decodeMisc_undefined {c : Cond} (h : definedMisc f.b22 f.b21 f.b7 f.b6 f.b5 f.b4 = false) :
    decodeMisc c f = .unallocMisc c f.b22 f.b21 f.rn f.rd f.rs f.b7 f.b6 f.b5 f.b4 f.rm := by
  unfold decodeMisc
  split
  case h_16 => rfl
  all_goals simp_all [definedMisc]

/-- A well-formed instruction is what its ARM fields decode to. The cases stand by format: the format's lemma gives the
fields, and they choose the row of the decoder. -/
theorem decode_arm {i : Instr} (h : encodeFields i = .arm f) (wf : i.wellFormed = true) : decodeArmFields f = i := by
  cases i with
  | pldImm =>
    obtain ⟨cond, fields⟩ := Enc.low12_eq_iff.mp (Fields.arm.inj h)
    rw [decodeArmFields_uncond cond]
    simp [decodeUncond, fields]
  | pldReg =>
    obtain ⟨cond, fields⟩ := Enc.shiftForm_eq_iff.mp (Fields.arm.inj h)
    rw [decodeArmFields_uncond cond]
    simp [decodeUncond, fields]
  | blxImm =>
    obtain ⟨cond, fields⟩ := Enc.imm24_eq_iff.mp (Fields.arm.inj h)
    rw [decodeArmFields_uncond cond]
    simp [decodeUncond, fields]
  | unallocUncondLsm | unallocUncondMcrr =>
    obtain ⟨cond, fields⟩ := Enc.top11_eq_iff.mp (Fields.arm.inj h)
    rw [decodeArmFields_uncond cond]
    simp [decodeUncond, CpIndexing.ofBits, fields]
  | ldc2 | stc2 =>
    obtain ⟨cond, fields⟩ := Enc.cpLoadStore_eq_iff.mp (Fields.arm.inj h)
    rw [decodeArmFields_uncond cond]
    simp [decodeUncond, fields]
  | cdp2 =>
    obtain ⟨cond, fields⟩ := Enc.cdp_eq_iff.mp (Fields.arm.inj h)
    rw [decodeArmFields_uncond cond]
    simp [decodeUncond, fields]
  | mcr2 | mrc2 =>
    obtain ⟨cond, fields⟩ := Enc.mcr_eq_iff.mp (Fields.arm.inj h)
    rw [decodeArmFields_uncond cond]
    simp [decodeUncond, fields]
  | unallocUncond bits =>
    obtain ⟨cond, rfl⟩ := Enc.raw28_eq_iff.mp (Fields.arm.inj h)
    rw [decodeArmFields_uncond cond]
    exact decodeUncond_undefined (Bool.not_eq_true' _ ▸ wf)
  | mrcTcmSize | mrcControl | mcrControl | mcrWaitForInterrupt | mcrWaitForInterruptLegacy | mcrDrainWriteBuffer | mrcProcId
    | mcrProcId | mrcConfigControl | mcrConfigControl | mrcBistControl | mcrBistControl | mrcIBistAddress | mcrIBistAddress
    | mrcIBistGeneral | mcrIBistGeneral | mrcDBistAddress | mcrDBistAddress | mrcDBistGeneral | mcrDBistGeneral =>
    obtain ⟨cond, fields⟩ := Enc.mcr_eq_iff.mp (Fields.arm.inj h)
    rw [decodeArmFields_pass cond]
    simp [decodeCond, decodeCpRegister, decodeP15, fields]
  | mrcIdCode c rd op2 =>
    obtain ⟨cond, fields⟩ := Enc.mcr_eq_iff.mp (Fields.arm.inj h)
    have other : op2 ≠ 2#3 := bne_iff_ne.mp wf
    rw [decodeArmFields_pass cond]
    simp [decodeCond, decodeCpRegister, decodeP15, fields, other]
  | p15Other =>
    obtain ⟨cond, fields⟩ := Enc.mcr_eq_iff.mp (Fields.arm.inj h)
    rw [decodeArmFields_pass cond]
    simpa [decodeCond, decodeCpRegister, fields] using decodeP15_unnamed (Bool.not_eq_true' _ ▸ wf)
  | mrcCommsStatus | mrcCommsData | mcrCommsData | mrcMonitorStatus | mcrMonitorStatus =>
    obtain ⟨cond, fields⟩ := Enc.mcr_eq_iff.mp (Fields.arm.inj h)
    rw [decodeArmFields_pass cond]
    simp [decodeCond, decodeCpRegister, decodeP14, fields]
  | p14Other =>
    obtain ⟨cond, fields⟩ := Enc.mcr_eq_iff.mp (Fields.arm.inj h)
    rw [decodeArmFields_pass cond]
    simpa [decodeCond, decodeCpRegister, fields] using decodeP14_unnamed (Bool.not_eq_true' _ ▸ wf)
  | p15Transfer | p14Transfer =>
    obtain ⟨cond, fields⟩ := Enc.cpClass_eq_iff.mp (Fields.arm.inj h)
    rw [decodeArmFields_pass cond]
    simp [decodeCond, decodeCpTransfer, fields]
  | p15Cdp | p14Cdp =>
    obtain ⟨cond, fields⟩ := Enc.cdp_eq_iff.mp (Fields.arm.inj h)
    rw [decodeArmFields_pass cond]
    simp [decodeCond, decodeCpRegister, fields]
  | mcrr | mrrc =>
    obtain ⟨cond, fields⟩ := Enc.mcrr_eq_iff.mp (Fields.arm.inj h)
    have external := externalCp_iff.mp wf
    rw [decodeArmFields_pass cond]
    simp [decodeCond, decodeCpTransfer, fields, external]
  | unallocCp =>
    obtain ⟨cond, fields⟩ := Enc.cpUnalloc_eq_iff.mp (Fields.arm.inj h)
    have external := externalCp_iff.mp wf
    rw [decodeArmFields_pass cond]
    simp [decodeCond, decodeCpTransfer, fields, external]
  | ldc | stc =>
    obtain ⟨cond, fields⟩ := Enc.cpLoadStore_eq_iff.mp (Fields.arm.inj h)
    have external := externalCp_iff.mp wf
    rw [decodeArmFields_pass cond]
    simp [decodeCond, decodeCpTransfer, fields, external]
  | cdp =>
    obtain ⟨cond, fields⟩ := Enc.cdp_eq_iff.mp (Fields.arm.inj h)
    have external := externalCp_iff.mp wf
    rw [decodeArmFields_pass cond]
    simp [decodeCond, decodeCpRegister, fields, external]
  | mcr | mrc =>
    obtain ⟨cond, fields⟩ := Enc.mcr_eq_iff.mp (Fields.arm.inj h)
    have external := externalCp_iff.mp wf
    rw [decodeArmFields_pass cond]
    simp [decodeCond, decodeCpRegister, fields, external]
  | swi | b | bl =>
    obtain ⟨cond, fields⟩ := Enc.imm24_eq_iff.mp (Fields.arm.inj h)
    rw [decodeArmFields_pass cond]
    simp [decodeCond, fields]
  | ldmReturn | ldmUser =>
    obtain ⟨cond, fields⟩ := Enc.lsm_eq_iff.mp (Fields.arm.inj h)
    rw [decodeArmFields_pass cond]
    simp only [decodeCond, decodeLsm, fields]
  | ldm | stmUser | stm =>
    obtain ⟨cond, fields⟩ := Enc.lsm16_eq_iff.mp (Fields.arm.inj h)
    rw [decodeArmFields_pass cond]
    simp [decodeCond, decodeLsm, fields]
  | undefinedArm =>
    obtain ⟨cond, fields⟩ := Enc.undef011_eq_iff.mp (Fields.arm.inj h)
    rw [decodeArmFields_pass cond]
    simp [decodeCond, fields]
  | ldrtImm | ldrbtImm | strtImm | strbtImm =>
    obtain ⟨cond, fields⟩ := Enc.low12_eq_iff.mp (Fields.arm.inj h)
    rw [decodeArmFields_pass cond]
    simp [decodeCond, decodeLsImm, fields]
  | ldrImm c x | ldrbImm c x | strImm c x | strbImm c x =>
    obtain ⟨cond, fields⟩ := Enc.low12_eq_iff.mp (Fields.arm.inj h)
    rw [decodeArmFields_pass cond]
    cases x <;> simp [decodeCond, decodeLsImm, Indexing.p, Indexing.w, fields]
  | ldrtReg | ldrbtReg | strtReg | strbtReg =>
    obtain ⟨cond, fields⟩ := Enc.shiftForm_eq_iff.mp (Fields.arm.inj h)
    rw [decodeArmFields_pass cond]
    simp [decodeCond, decodeLsReg, fields]
  | ldrReg c x | ldrbReg c x | strReg c x | strbReg c x =>
    obtain ⟨cond, fields⟩ := Enc.shiftForm_eq_iff.mp (Fields.arm.inj h)
    rw [decodeArmFields_pass cond]
    cases x <;> simp [decodeCond, decodeLsReg, Indexing.p, Indexing.w, fields]
  | mul | mla | unallocArith | umull | umlal | smull | smlal | swp | swpb =>
    obtain ⟨cond, fields⟩ := ArmWord.mk_eq_iff.mp (Fields.arm.inj h)
    rw [decodeArmFields_pass cond]
    simp [decodeCond, decodeMultiply, fields]
  | unallocExt =>
    obtain ⟨cond, fields⟩ := ArmWord.mk_eq_iff.mp (Fields.arm.inj h)
    rw [decodeArmFields_pass cond]
    have other := (Bool.not_eq_true' _).mp wf
    simp [decodeCond, decodeMultiply, fields, other]
  | strhImm | ldrdImm | strdImm | ldrhImm | ldrsbImm | ldrshImm =>
    obtain ⟨cond, fields⟩ := Enc.lshImm_eq_iff.mp (Fields.arm.inj h)
    rw [decodeArmFields_pass cond]
    simp [decodeCond, decodeHalf, fields]
  | strhReg | ldrdReg | strdReg | ldrhReg | ldrsbReg | ldrshReg =>
    obtain ⟨cond, fields⟩ := ArmWord.mk_eq_iff.mp (Fields.arm.inj h)
    rw [decodeArmFields_pass cond]
    simp [decodeCond, decodeHalf, fields]
  | mrs | msrReg | bx | clz | blxReg | qadd | qsub | qdadd | qdsub | smlaxy | smlawy | smulwy | smlalxy | smulxy =>
    obtain ⟨cond, fields⟩ := ArmWord.mk_eq_iff.mp (Fields.arm.inj h)
    rw [decodeArmFields_pass cond]
    simp [decodeCond, decodeMisc, fields]
  | bkpt =>
    obtain ⟨cond, fields⟩ := Enc.bkpt_eq_iff.mp (Fields.arm.inj h)
    rw [decodeArmFields_pass cond]
    simp [decodeCond, decodeMisc, fields]
  | unallocMisc c b22 b21 rn rd rs b7 b6 b5 b4 rm =>
    obtain ⟨cond, fields⟩ := ArmWord.mk_eq_iff.mp (Fields.arm.inj h)
    have other : definedMisc f.b22 f.b21 f.b7 f.b6 f.b5 f.b4 = false := by
      simp only [fields]
      exact Bool.not_eq_true' _ ▸ wf
    have other' : (f.b7 && f.b4) = false := by
      simp only [definedMisc, Bool.or_eq_false_iff] at other
      simp only [other]
    rw [decodeArmFields_pass cond]
    have := decodeMisc_undefined (c := c) other
    simp only [fields] at this other'
    simp [decodeCond, fields, other', this]
  | msrImm | undefinedArm2 =>
    obtain ⟨cond, fields⟩ := Enc.low8_eq_iff.mp (Fields.arm.inj h)
    rw [decodeArmFields_pass cond]
    simp [decodeCond, fields]
  | andImm | eorImm | subImm | rsbImm | addImm | adcImm | sbcImm | rscImm | tstImm | teqImm | cmpImm | cmnImm | orrImm
    | movImm | bicImm | mvnImm =>
    obtain ⟨cond, fields⟩ := Enc.low8_eq_iff.mp (Fields.arm.inj h)
    rw [decodeArmFields_pass cond]
    simp [decodeCond, decodeDpImm, fields]
  | andShift | eorShift | subShift | rsbShift | addShift | adcShift | sbcShift | rscShift | tstShift | teqShift | cmpShift
    | cmnShift | orrShift | movShift | bicShift | mvnShift =>
    obtain ⟨cond, fields⟩ := Enc.shiftForm_eq_iff.mp (Fields.arm.inj h)
    rw [decodeArmFields_pass cond]
    simp [decodeCond, decodeDpShift, fields]
  | andRegShift | eorRegShift | subRegShift | rsbRegShift | addRegShift | adcRegShift | sbcRegShift | rscRegShift | tstRegShift
    | teqRegShift | cmpRegShift | cmnRegShift | orrRegShift | movRegShift | bicRegShift | mvnRegShift =>
    obtain ⟨cond, fields⟩ := Enc.dpRegShift_eq_iff.mp (Fields.arm.inj h)
    rw [decodeArmFields_pass cond]
    simp [decodeCond, decodeDpRegShift, fields]
  | _ => cases h

end

/-! ## Thumb halfwords -/

section
variable {f : ThumbWord}

/-- The codes that R122 defines in the space 1011, by the fields of the halfword. -/
theorem definedThumbMisc_imm12 (f : ThumbWord) : definedThumbMisc f.imm12 =
    ((!f.b11 && !f.b10 && !f.b9 && !f.b8) || (f.b10 && !f.b9) || (f.b11 && f.b10 && f.b9 && !f.b8)) := by
  obtain ⟨h11, h⟩ := ThumbWord.imm12_eq_iff.mp (Eq.refl f.imm12)
  obtain ⟨h10, h9, h8, -⟩ := ThumbWord.imm11_eq_iff.mp h
  simp only [BitVec.getLsbD_extractLsb', Nat.reduceLT, Nat.reduceAdd, decide_true, Bool.true_and] at h10 h9 h8
  simp [definedThumbMisc, h11, h10, h9, h8]

theorem decodeThumbMisc_undefined (h : definedThumbMisc f.imm12 = false) :
    decodeThumbMisc f = .unallocThumbMisc f.imm12 := by
  rw [definedThumbMisc_imm12] at h
  unfold decodeThumbMisc
  split <;> simp_all

/-- A well-formed instruction is what its Thumb fields decode to. -/
theorem decode_thumb {i : Instr} (h : encodeFields i = .thumb f) (wf : i.wellFormed = true) : decodeThumbFields f = i := by
  cases i with
  | tLslImm | tLsrImm | tAsrImm | tStrImm | tLdrImm | tStrbImm | tLdrbImm | tStrhImm | tLdrhImm =>
    have fields := Enc.tImm5_eq_iff.mp (Fields.thumb.inj h)
    simp [decodeThumbFields, fields]
  | tAddReg | tSubReg | tAddImm3 | tSubImm3 | tStrReg | tStrhReg | tStrbReg | tLdrsbReg | tLdrReg | tLdrhReg | tLdrbReg
    | tLdrshReg =>
    have fields := Enc.tThree_eq_iff.mp (Fields.thumb.inj h)
    simp [decodeThumbFields, fields]
  | tMovImm | tCmpImm | tAddImm8 | tSubImm8 | tLdrLit | tStrSp | tLdrSp | tAddPcImm | tAddSpImm | tStmia | tLdmia =>
    have fields := Enc.tImm8_eq_iff.mp (Fields.thumb.inj h)
    simp [decodeThumbFields, fields]
  | tAnd | tEor | tLslReg | tLsrReg | tAsrReg | tAdc | tSbc | tRorReg | tTst | tNeg | tCmpReg | tCmn | tOrr | tMul | tBic
    | tMvn =>
    have fields := ThumbWord.mk_eq_iff.mp (Fields.thumb.inj h)
    simp [decodeThumbFields, decodeThumbAlu, fields]
  | tAddHi | tCmpHi | tMovHi =>
    have fields := Enc.tHi_eq_iff.mp (Fields.thumb.inj h)
    simp [decodeThumbFields, fields]
  | tBx | tBlxReg =>
    have fields := Enc.tBx_eq_iff.mp (Fields.thumb.inj h)
    simp [decodeThumbFields, fields]
  | tAddSp | tSubSp =>
    have fields := Enc.tAdjustSp_eq_iff.mp (Fields.thumb.inj h)
    simp [decodeThumbFields, decodeThumbMisc, fields]
  | tPush | tPop | tBkpt =>
    have fields := Enc.tByte4_eq_iff.mp (Fields.thumb.inj h)
    simp [decodeThumbFields, decodeThumbMisc, fields]
  | unallocThumbMisc =>
    obtain ⟨h15, h14, h13, h12, rfl⟩ := Enc.tRaw12_eq_iff.mp (Fields.thumb.inj h)
    simp only [decodeThumbFields, h15, h14, h13, h12]
    exact decodeThumbMisc_undefined (Bool.not_eq_true' _ ▸ wf)
  | undefinedThumb | tSwi =>
    have fields := Enc.tByte4_eq_iff.mp (Fields.thumb.inj h)
    have cond : Cond.ofBits (nib true true true false) = some .al ∧ Cond.ofBits (nib true true true true) = none := by decide
    simp [decodeThumbFields, cond, fields]
  | tBCond c imm =>
    obtain ⟨h15, h14, h13, h12, cond, rfl⟩ := Enc.tBCond_eq_iff.mp (Fields.thumb.inj h)
    -- The decoder's row for AL comes before this one: simp needs `other` in the context to pass it.
    have other : c ≠ .al := bne_iff_ne.mp wf
    simp only [decodeThumbFields, h15, h14, h13, h12, cond, Cond.ofBits_bits]
  | tB | tBlPrefix | tBlSuffix =>
    have fields := Enc.tImm11_eq_iff.mp (Fields.thumb.inj h)
    simp [decodeThumbFields, fields]
  | unallocBlxSuffix | tBlxSuffix =>
    have fields := Enc.tSuffix_eq_iff.mp (Fields.thumb.inj h)
    simp only [decodeThumbFields, fields]
    rfl
  | _ => cases h

end

end Sys2Proof
end

section
/-! SUPPORT. Proofs: every row of the decoder gives a well-formed instruction with the word's own fields; the two directions
of the encoding (O58, O59). -/

namespace Sys2Proof

/-- The term is well formed, and these are its fields. -/
def Instr.HasFields (i : Instr) (f : Fields) : Prop := i.wellFormed = true ∧ encodeFields i = f

variable {f : ArmWord} {c : Cond}

/-! ## ARM words: each table of the decoder, on the words that reach it -/

theorem decodeDpShift_hasFields (cond : f.cond = c.bits) (space : f.b27 = false ∧ f.b26 = false ∧ f.b25 = false)
    (b4 : f.b4 = false) (used : (f.b24 && !f.b23 && !f.b20) = false) : (decodeDpShift c f).HasFields (.arm f) := by
  unfold decodeDpShift
  split <;> exact ⟨rfl, congrArg Fields.arm (Enc.shiftForm_eq_iff.mpr (by simp_all))⟩

theorem decodeDpRegShift_hasFields (cond : f.cond = c.bits) (space : f.b27 = false ∧ f.b26 = false ∧ f.b25 = false)
    (b7 : f.b7 = false) (b4 : f.b4 = true) (used : (f.b24 && !f.b23 && !f.b20) = false) :
    (decodeDpRegShift c f).HasFields (.arm f) := by
  unfold decodeDpRegShift
  split <;> exact ⟨rfl, congrArg Fields.arm (Enc.dpRegShift_eq_iff.mpr (by simp_all))⟩

theorem decodeDpImm_hasFields (cond : f.cond = c.bits) (space : f.b27 = false ∧ f.b26 = false ∧ f.b25 = true)
    (used : (f.b24 && !f.b23 && !f.b20) = false) : (decodeDpImm c f).HasFields (.arm f) := by
  unfold decodeDpImm
  split <;> exact ⟨rfl, congrArg Fields.arm (Enc.low8_eq_iff.mpr (by simp_all))⟩

theorem decodeLsImm_hasFields (cond : f.cond = c.bits) (space : f.b27 = false ∧ f.b26 = true ∧ f.b25 = false) :
    (decodeLsImm c f).HasFields (.arm f) := by
  unfold decodeLsImm
  split <;> exact ⟨rfl, congrArg Fields.arm (Enc.low12_eq_iff.mpr (by simp_all [Indexing.p, Indexing.w]))⟩

theorem decodeLsReg_hasFields (cond : f.cond = c.bits) (space : f.b27 = false ∧ f.b26 = true ∧ f.b25 = true)
    (b4 : f.b4 = false) : (decodeLsReg c f).HasFields (.arm f) := by
  unfold decodeLsReg
  split <;> exact ⟨rfl, congrArg Fields.arm (Enc.shiftForm_eq_iff.mpr (by simp_all [Indexing.p, Indexing.w]))⟩

theorem decodeMultiply_hasFields (cond : f.cond = c.bits) (space : f.b27 = false ∧ f.b26 = false ∧ f.b25 = false)
    (low : f.b7 = true ∧ f.b6 = false ∧ f.b5 = false ∧ f.b4 = true) : (decodeMultiply c f).HasFields (.arm f) := by
  unfold decodeMultiply
  split
  case h_8 =>
    split
    · split <;> exact ⟨rfl, congrArg Fields.arm (ArmWord.mk_eq_iff.mpr (by simp_all))⟩
    next other =>
      exact ⟨Bool.not_eq_true' _ ▸ eq_false_of_ne_true other, congrArg Fields.arm (ArmWord.mk_eq_iff.mpr (by simp_all))⟩
  all_goals exact ⟨rfl, congrArg Fields.arm (ArmWord.mk_eq_iff.mpr (by simp_all))⟩

theorem decodeHalf_hasFields (cond : f.cond = c.bits) (space : f.b27 = false ∧ f.b26 = false ∧ f.b25 = false)
    (low : f.b7 = true ∧ f.b4 = true) (half : ¬(f.b6 = false ∧ f.b5 = false)) : (decodeHalf c f).HasFields (.arm f) := by
  unfold decodeHalf
  split
  case h_1 | h_3 | h_5 | h_7 | h_9 | h_11 => exact ⟨rfl, congrArg Fields.arm (Enc.lshImm_eq_iff.mpr (by simp_all))⟩
  all_goals exact ⟨rfl, congrArg Fields.arm (ArmWord.mk_eq_iff.mpr (by simp_all))⟩

theorem decodeMisc_hasFields (cond : f.cond = c.bits) (space : f.b27 = false ∧ f.b26 = false ∧ f.b25 = false)
    (misc : f.b24 = true ∧ f.b23 = false ∧ f.b20 = false) (low : (f.b7 && f.b4) = false) :
    (decodeMisc c f).HasFields (.arm f) := by
  by_cases defined : definedMisc f.b22 f.b21 f.b7 f.b6 f.b5 f.b4 = true
  · unfold decodeMisc
    split
    case h_10 => exact ⟨rfl, congrArg Fields.arm (Enc.bkpt_eq_iff.mpr (by simp_all))⟩
    case h_16 => cases b6 : f.b6 <;> cases b5 : f.b5 <;> simp_all [definedMisc]
    all_goals exact ⟨rfl, congrArg Fields.arm (ArmWord.mk_eq_iff.mpr (by simp_all))⟩
  · have undefined := eq_false_of_ne_true defined
    rw [decodeMisc_undefined undefined]
    exact ⟨Bool.not_eq_true' _ ▸ undefined, congrArg Fields.arm (ArmWord.mk_eq_iff.mpr (by simp_all))⟩

theorem decodeLsm_hasFields (cond : f.cond = c.bits) (space : f.b27 = true ∧ f.b26 = false ∧ f.b25 = false) :
    (decodeLsm c f).HasFields (.arm f) := by
  unfold decodeLsm
  split
  case h_1 | h_2 => exact ⟨rfl, congrArg Fields.arm (Enc.lsm_eq_iff.mpr (by simp_all))⟩
  all_goals exact ⟨rfl, congrArg Fields.arm (Enc.lsm16_eq_iff.mpr (by simp_all))⟩

theorem external_of_ne {cp : Reg} (p15 : ¬(cp == 15) = true) (p14 : ¬(cp == 14) = true) : externalCp cp = true := by
  simp_all [externalCp]

theorem decodeCpTransfer_hasFields (cond : f.cond = c.bits) (space : f.b27 = true ∧ f.b26 = true ∧ f.b25 = false) :
    (decodeCpTransfer c f).HasFields (.arm f) := by
  unfold decodeCpTransfer
  split
  next p15 => exact ⟨rfl, congrArg Fields.arm (Enc.cpClass_eq_iff.mpr (by simp_all))⟩
  next p15 =>
    split
    next p14 => exact ⟨rfl, congrArg Fields.arm (Enc.cpClass_eq_iff.mpr (by simp_all))⟩
    next p14 =>
      have external := external_of_ne p15 p14
      split
      · split <;> exact ⟨external, congrArg Fields.arm (Enc.cpLoadStore_eq_iff.mpr (by simp_all))⟩
      · split
        · split <;> exact ⟨external, congrArg Fields.arm (Enc.mcrr_eq_iff.mpr (by simp_all))⟩
        · exact ⟨external, congrArg Fields.arm (Enc.cpUnalloc_eq_iff.mpr (by simp_all))⟩

/-- MCR and MRC of p15: the rows that R123 lists, and all the others. -/
theorem decodeP15_hasFields (c : Cond) (l : Bool) (op1 op2 : BitVec 3) (crn rd crm : Reg) :
    (decodeP15 c l op1 crn rd op2 crm).HasFields (.arm (Enc.mcr c.bits l op1 crn rd 15 op2 crm)) := by
  by_cases named : p15Named l op1 crn op2 crm = true
  · simp only [p15Named, Bool.or_eq_true, Bool.and_eq_true, Bool.not_eq_true', beq_iff_eq] at named
    rcases named with ((((((h | h) | h) | h) | h) | h) | h) | h
    · obtain ⟨⟨⟨rfl, rfl⟩, rfl⟩, rfl⟩ := h
      by_cases size : op2 = 2#3
      · subst size
        exact ⟨rfl, rfl⟩
      · have idCode : decodeP15 c true 0 0 rd op2 0 = .mrcIdCode c rd op2 := by simp [decodeP15, size]
        rw [idCode]
        exact ⟨bne_iff_ne.mpr size, rfl⟩
    · obtain ⟨⟨⟨rfl, rfl⟩, rfl⟩, rfl⟩ := h
      cases l <;> exact ⟨rfl, rfl⟩
    · obtain ⟨⟨⟨⟨rfl, rfl⟩, rfl⟩, rfl⟩, rfl⟩ := h
      exact ⟨rfl, rfl⟩
    · obtain ⟨⟨⟨⟨rfl, rfl⟩, rfl⟩, rfl⟩, rfl⟩ := h
      exact ⟨rfl, rfl⟩
    · obtain ⟨⟨⟨⟨rfl, rfl⟩, rfl⟩, rfl⟩, rfl⟩ := h
      exact ⟨rfl, rfl⟩
    · obtain ⟨⟨rfl, rfl⟩, rfl⟩ := h
      cases l <;> exact ⟨rfl, rfl⟩
    · obtain ⟨⟨⟨rfl, rfl⟩, rfl⟩, rfl⟩ := h
      cases l <;> exact ⟨rfl, rfl⟩
    · obtain ⟨⟨⟨rfl, rfl⟩, rfl⟩, (((rfl | rfl) | rfl) | rfl) | rfl⟩ := h <;> cases l <;> exact ⟨rfl, rfl⟩
  · have unnamed := eq_false_of_ne_true named
    rw [decodeP15_unnamed unnamed]
    exact ⟨Bool.not_eq_true' _ ▸ unnamed, rfl⟩

/-- MCR and MRC of p14: the rows that R162 lists, and all the others. -/
theorem decodeP14_hasFields (c : Cond) (l : Bool) (op1 op2 : BitVec 3) (crn rd crm : Reg) :
    (decodeP14 c l op1 crn rd op2 crm).HasFields (.arm (Enc.mcr c.bits l op1 crn rd 14 op2 crm)) := by
  by_cases named : p14Named l op1 crn op2 crm = true
  · simp only [p14Named, Bool.or_eq_true, Bool.and_eq_true, beq_iff_eq] at named
    obtain ⟨⟨⟨rfl, rfl⟩, rfl⟩, (⟨rfl, rfl⟩ | rfl) | rfl⟩ := named
    · exact ⟨rfl, rfl⟩
    all_goals cases l <;> exact ⟨rfl, rfl⟩
  · have unnamed := eq_false_of_ne_true named
    rw [decodeP14_unnamed unnamed]
    exact ⟨Bool.not_eq_true' _ ▸ unnamed, rfl⟩

theorem decodeCpRegister_hasFields (cond : f.cond = c.bits) (space : f.b27 = true ∧ f.b26 = true ∧ f.b25 = true)
    (b24 : f.b24 = false) : (decodeCpRegister c f).HasFields (.arm f) := by
  have transfer (b4 : ¬(!f.b4) = true) (cp : Reg) (rs : f.rs = cp) :
      Enc.mcr c.bits f.b20 f.bits23to21 f.rn f.rd cp f.bits7to5 f.rm = f := Enc.mcr_eq_iff.mpr (by simp_all)
  unfold decodeCpRegister
  split
  next b4 =>
    split
    next p15 => exact ⟨rfl, congrArg Fields.arm (Enc.cdp_eq_iff.mpr (by simp_all))⟩
    next p15 =>
      split
      next p14 => exact ⟨rfl, congrArg Fields.arm (Enc.cdp_eq_iff.mpr (by simp_all))⟩
      next p14 => exact ⟨external_of_ne p15 p14, congrArg Fields.arm (Enc.cdp_eq_iff.mpr (by simp_all))⟩
  next b4 =>
    split
    next p15 =>
      have h := decodeP15_hasFields c f.b20 f.bits23to21 f.bits7to5 f.rn f.rd f.rm
      rwa [transfer b4 15 (beq_iff_eq.mp p15)] at h
    next p15 =>
      split
      next p14 =>
        have h := decodeP14_hasFields c f.b20 f.bits23to21 f.bits7to5 f.rn f.rd f.rm
        rwa [transfer b4 14 (beq_iff_eq.mp p14)] at h
      next p14 =>
        split <;> exact ⟨external_of_ne p15 p14, congrArg Fields.arm (Enc.mcr_eq_iff.mpr (by simp_all))⟩

theorem decodeCond_hasFields (cond : f.cond = c.bits) : (decodeCond c f).HasFields (.arm f) := by
  unfold decodeCond
  split
  next b27 b26 b25 =>
    have space : f.b27 = false ∧ f.b26 = false ∧ f.b25 = false := ⟨b27, b26, b25⟩
    split
    next low =>
      obtain ⟨b7, b4⟩ : f.b7 = true ∧ f.b4 = true := by simpa using low
      split
      next mul =>
        obtain ⟨b6, b5⟩ : f.b6 = false ∧ f.b5 = false := by simpa using mul
        exact decodeMultiply_hasFields cond space ⟨b7, b6, b5, b4⟩
      next half => exact decodeHalf_hasFields cond space ⟨b7, b4⟩ (by simpa using half)
    next low =>
      split
      next misc => exact decodeMisc_hasFields cond space (by simpa [and_assoc] using misc) (eq_false_of_ne_true low)
      next used =>
        split
        next b4 => exact decodeDpRegShift_hasFields cond space (by simpa [b4] using low) b4 (eq_false_of_ne_true used)
        next b4 => exact decodeDpShift_hasFields cond space (eq_false_of_ne_true b4) (eq_false_of_ne_true used)
  next b27 b26 b25 =>
    split
    next misc => split <;> exact ⟨rfl, congrArg Fields.arm (Enc.low8_eq_iff.mpr (by simp_all))⟩
    next used => exact decodeDpImm_hasFields cond ⟨b27, b26, b25⟩ (eq_false_of_ne_true used)
  next b27 b26 b25 => exact decodeLsImm_hasFields cond ⟨b27, b26, b25⟩
  next b27 b26 b25 =>
    split
    next b4 => exact ⟨rfl, congrArg Fields.arm (Enc.undef011_eq_iff.mpr (by simp_all))⟩
    next b4 => exact decodeLsReg_hasFields cond ⟨b27, b26, b25⟩ (eq_false_of_ne_true b4)
  next b27 b26 b25 => exact decodeLsm_hasFields cond ⟨b27, b26, b25⟩
  next b27 b26 b25 => split <;> exact ⟨rfl, congrArg Fields.arm (Enc.imm24_eq_iff.mpr (by simp_all))⟩
  next b27 b26 b25 => exact decodeCpTransfer_hasFields cond ⟨b27, b26, b25⟩
  next b27 b26 b25 =>
    split
    next b24 => exact ⟨rfl, congrArg Fields.arm (Enc.imm24_eq_iff.mpr (by simp_all))⟩
    next b24 => exact decodeCpRegister_hasFields cond ⟨b27, b26, b25⟩ (eq_false_of_ne_true b24)

theorem decodeUncond_hasFields (cond : f.cond = 15) : (decodeUncond f).HasFields (.arm f) := by
  by_cases defined : definedUncond f.imm28 = true
  · rw [definedUncond_imm28] at defined
    unfold decodeUncond
    split
    next b27 b26 b25 =>
      split
      next => exact ⟨rfl, congrArg Fields.arm (Enc.low12_eq_iff.mpr (by simp_all))⟩
      next => simp_all
    next b27 b26 b25 =>
      split
      next => exact ⟨rfl, congrArg Fields.arm (Enc.shiftForm_eq_iff.mpr (by simp_all))⟩
      next => simp_all
    next b27 b26 b25 => exact ⟨rfl, congrArg Fields.arm (Enc.imm24_eq_iff.mpr (by simp_all))⟩
    next b27 b26 b25 =>
      split
      · split <;> exact ⟨rfl, congrArg Fields.arm (Enc.cpLoadStore_eq_iff.mpr (by simp_all))⟩
      next none =>
        have extension := CpIndexing.ofBits_eq_none.mp none
        split <;> exact ⟨rfl, congrArg Fields.arm (Enc.top11_eq_iff.mpr (by simp_all))⟩
    next b27 b26 b25 =>
      split
      next => simp_all
      next b24 =>
        split
        next b4 => exact ⟨rfl, congrArg Fields.arm (Enc.cdp_eq_iff.mpr (by simp_all))⟩
        next b4 => split <;> exact ⟨rfl, congrArg Fields.arm (Enc.mcr_eq_iff.mpr (by simp_all))⟩
    next => grind -- the rows above are all that `defined` allows
  · have undefined := eq_false_of_ne_true defined
    rw [decodeUncond_undefined undefined]
    exact ⟨Bool.not_eq_true' _ ▸ undefined, congrArg Fields.arm (Enc.raw28_eq_iff.mpr ⟨cond, rfl⟩)⟩

theorem decodeArmFields_hasFields (f : ArmWord) : (decodeArmFields f).HasFields (.arm f) := by
  unfold decodeArmFields
  split
  next c cond => exact decodeCond_hasFields (Cond.ofBits_eq_some.mp cond)
  next cond => exact decodeUncond_hasFields (Cond.ofBits_eq_none.mp cond)

/-! ## Thumb halfwords -/

variable {t : ThumbWord}

theorem decodeThumbAlu_hasFields
    (space : t.b15 = false ∧ t.b14 = true ∧ t.b13 = false ∧ t.b12 = false ∧ t.b11 = false ∧ t.b10 = false) :
    (decodeThumbAlu t).HasFields (.thumb t) := by
  unfold decodeThumbAlu
  split <;> exact ⟨rfl, congrArg Fields.thumb (ThumbWord.mk_eq_iff.mpr (by simp_all))⟩

theorem decodeThumbMisc_hasFields (space : t.b15 = true ∧ t.b14 = false ∧ t.b13 = true ∧ t.b12 = true) :
    (decodeThumbMisc t).HasFields (.thumb t) := by
  by_cases defined : definedThumbMisc t.imm12 = true
  · rw [definedThumbMisc_imm12] at defined
    unfold decodeThumbMisc
    split
    · split <;> exact ⟨rfl, congrArg Fields.thumb (Enc.tAdjustSp_eq_iff.mpr (by simp_all))⟩
    · exact ⟨rfl, congrArg Fields.thumb (Enc.tByte4_eq_iff.mpr (by simp_all))⟩
    · exact ⟨rfl, congrArg Fields.thumb (Enc.tByte4_eq_iff.mpr (by simp_all))⟩
    · exact ⟨rfl, congrArg Fields.thumb (Enc.tByte4_eq_iff.mpr (by simp_all))⟩
    · grind -- the rows above are all that `defined` allows
  · have undefined := eq_false_of_ne_true defined
    rw [decodeThumbMisc_undefined undefined]
    exact ⟨Bool.not_eq_true' _ ▸ undefined, congrArg Fields.thumb (Enc.tRaw12_eq_iff.mpr (by simp_all))⟩

theorem decodeThumbFields_hasFields (t : ThumbWord) : (decodeThumbFields t).HasFields (.thumb t) := by
  unfold decodeThumbFields
  split
  case h_1 | h_2 | h_3 | h_12 | h_13 | h_14 | h_15 | h_16 | h_17 =>
    exact ⟨rfl, congrArg Fields.thumb (Enc.tImm5_eq_iff.mpr (by simp_all))⟩
  case h_4 | h_11 => split <;> exact ⟨rfl, congrArg Fields.thumb (Enc.tThree_eq_iff.mpr (by simp_all))⟩
  case h_5 | h_6 | h_7 | h_8 | h_10 | h_18 | h_19 | h_20 | h_21 | h_23 | h_24 =>
    exact ⟨rfl, congrArg Fields.thumb (Enc.tImm8_eq_iff.mpr (by simp_all))⟩
  case h_9 =>
    split
    next => exact decodeThumbAlu_hasFields (by simp_all)
    next =>
      split
      case h_4 => split <;> exact ⟨rfl, congrArg Fields.thumb (Enc.tBx_eq_iff.mpr (by simp_all))⟩
      all_goals exact ⟨rfl, congrArg Fields.thumb (Enc.tHi_eq_iff.mpr (by simp_all))⟩
  case h_22 => exact decodeThumbMisc_hasFields (by simp_all)
  case h_25 b15 b14 b13 b12 b11 =>
    split
    next cond =>
      have bits := nib_eq_iff.mp (Cond.ofBits_eq_some.mp cond)
      exact ⟨rfl, congrArg Fields.thumb (Enc.tByte4_eq_iff.mpr (by simp_all [Cond.bits]))⟩
    next c other cond =>
      have bits := Cond.ofBits_eq_some.mp cond
      exact ⟨bne_iff_ne.mpr (by simpa using other), congrArg Fields.thumb (Enc.tBCond_eq_iff.mpr (by simp_all))⟩
    next cond =>
      have bits := nib_eq_iff.mp (Cond.ofBits_eq_none.mp cond)
      exact ⟨rfl, congrArg Fields.thumb (Enc.tByte4_eq_iff.mpr (by simp_all))⟩
  case h_27 => split <;> exact ⟨rfl, congrArg Fields.thumb (Enc.tSuffix_eq_iff.mpr (by simp_all))⟩
  case h_26 | h_28 | h_29 => exact ⟨rfl, congrArg Fields.thumb (Enc.tImm11_eq_iff.mpr (by simp_all))⟩

/-! ## The two directions -/

/-- Settles O58: the code's fields are the instruction's, and they decode to it. -/
theorem decodeEncode : Obligations.DecodeEncode := by
  intro i wf
  show decodeFields (encodeFields i).toCode.fields = i
  rw [Code.fields_toCode]
  cases fields : encodeFields i with
  | arm f => exact decode_arm fields wf
  | thumb f => exact decode_thumb fields wf

/-- Settles O59: what the decoder gives has the code's own fields, and a code is what its fields spell. -/
theorem encodeDecode : Obligations.EncodeDecode := by
  intro k
  have h : (decode k).HasFields k.fields := by
    cases k with
    | arm w => exact decodeArmFields_hasFields (.ofBits w)
    | thumb h => exact decodeThumbFields_hasFields (.ofBits h)
  obtain ⟨wf, fields⟩ := h
  refine ⟨wf, ?_⟩
  rw [encode, fields, Code.toCode_fields]

end Sys2Proof
end

section
/-! SUPPORT. Proofs: each bit and the carry of each shifter operand (R170). -/

namespace Sys2Proof.Machine

/-! ## One bit of a shifted word -/

theorem rotateRight_bit (x : Word) (n : Nat) {j : Nat} (hj : j < 32) :
    (x.rotateRight n).getLsbD j = x.getLsbD ((j + n) % 32) := by
  simp only [BitVec.getLsbD_rotateRight, Bool.cond_eq_ite, decide_eq_true_eq]
  split
  next h => rw [show (j + n) % 32 = n % 32 + j by omega]
  next h => rw [decide_eq_true hj, Bool.true_and, show (j + n) % 32 = j - (32 - n % 32) by omega]

theorem sshiftRight_bit (x : Word) (n : Nat) {j : Nat} (hj : j < 32) :
    (x.sshiftRight n).getLsbD j = x.getLsbD (min 31 (j + n)) := by
  rw [BitVec.getLsbD_sshiftRight, decide_eq_false (show ¬32 ≤ j by omega), Bool.not_false, Bool.true_and]
  split
  next h => rw [show min 31 (j + n) = n + j by omega]
  next h => rw [show min 31 (j + n) = 31 by omega, BitVec.msb_eq_getLsbD_last]

/-- A word filled with one bit. -/
theorem signFill_bit (b : Bool) {j : Nat} (hj : j < 32) :
    (if b then 0xFFFFFFFF else 0 : Word).getLsbD j = b := by
  cases b
  · simp
  · show (BitVec.allOnes 32).getLsbD j = true
    rw [BitVec.getLsbD_allOnes]
    exact decide_eq_true hj

theorem shiftLeft_bit (x : Word) (n : Nat) {j : Nat} (hj : j < 32) :
    (x <<< n).getLsbD j = (decide (n ≤ j) && x.getLsbD (j - n)) := by
  rw [BitVec.getLsbD_shiftLeft, decide_eq_true hj, Bool.true_and, ← decide_not]
  simp only [Nat.not_lt]

theorem immOperand_bits (rot : BitVec 4) (imm : BitVec 8) (s : State) {j : Nat} (hj : j < 32) :
    (immOperand rot imm s).value.getLsbD j = (imm.setWidth 32).getLsbD ((j + 2 * rot.toNat) % 32) :=
  rotateRight_bit _ _ hj

/-! ## The four shifts, by a constant and by a register -/

section
variable (x : Word) (c : Bool) {n j : Nat}

theorem shiftByImm_lsl (hj : j < 32) :
    (shiftByImm .lsl n x c).value.getLsbD j = (decide (n ≤ j) && x.getLsbD (j - n)) ∧
    (shiftByImm .lsl n x c).carry = if n = 0 then c else x.getLsbD (32 - n) := by
  simp only [shiftByImm]
  split
  next zero => simp [zero]
  next => exact ⟨shiftLeft_bit x n hj, rfl⟩

/-- LSR #0 stands for LSR #32. -/
theorem shiftByImm_lsr : (shiftByImm .lsr n x c).value.getLsbD j = x.getLsbD (j + if n = 0 then 32 else n) ∧
    (shiftByImm .lsr n x c).carry = x.getLsbD ((if n = 0 then 32 else n) - 1) := by
  simp only [shiftByImm]
  split
  next zero => simp
  next => simp [Nat.add_comm]

/-- ASR #0 stands for ASR #32. -/
theorem shiftByImm_asr (hj : j < 32) :
    (shiftByImm .asr n x c).value.getLsbD j = x.getLsbD (min 31 (j + if n = 0 then 32 else n)) ∧
      (shiftByImm .asr n x c).carry = x.getLsbD ((if n = 0 then 32 else n) - 1) := by
  simp only [shiftByImm]
  split
  next zero => exact ⟨by rw [signFill_bit _ hj, show min 31 (j + 32) = 31 by omega], rfl⟩
  next => exact ⟨sshiftRight_bit x n hj, rfl⟩

/-- ROR #0 stands for RRX. -/
theorem shiftByImm_ror (hj : j < 32) :
    if n = 0 then (shiftByImm .ror n x c).value.getLsbD j = (if j = 31 then c else x.getLsbD (j + 1)) ∧
      (shiftByImm .ror n x c).carry = x.getLsbD 0
    else (shiftByImm .ror n x c).value.getLsbD j = x.getLsbD ((j + n) % 32) ∧
      (shiftByImm .ror n x c).carry = x.getLsbD (n - 1) := by
  simp only [shiftByImm]
  split
  next zero =>
    refine ⟨?_, rfl⟩
    show (BitVec.ofBool c ++ x.extractLsb' 1 31).getLsbD j = _
    rw [BitVec.getLsbD_append, BitVec.getLsbD_extractLsb', BitVec.getLsbD_ofBool]
    by_cases last : j = 31
    · simp [last]
    · rw [if_pos (by omega), if_neg last, decide_eq_true (by omega), Bool.true_and, Nat.add_comm]
  next => exact ⟨rotateRight_bit x n hj, rfl⟩

theorem shiftByReg_lsl (hj : j < 32) :
    (shiftByReg .lsl n x c).value.getLsbD j = (decide (n ≤ j) && x.getLsbD (j - n)) ∧
    (shiftByReg .lsl n x c).carry = if n = 0 then c else decide (n ≤ 32) && x.getLsbD (32 - n) := by
  simp only [shiftByReg]
  split
  next zero => simp [zero]
  next =>
    constructor
    · split
      · exact shiftLeft_bit x n hj
      · simp [show ¬n ≤ j by omega]
    · split <;> simp_all

theorem shiftByReg_lsr : (shiftByReg .lsr n x c).value.getLsbD j = x.getLsbD (j + n) ∧
    (shiftByReg .lsr n x c).carry = if n = 0 then c else x.getLsbD (n - 1) := by
  simp only [shiftByReg]
  split
  next zero => simp [zero]
  next =>
    constructor
    · split
      · simp [Nat.add_comm]
      · exact (BitVec.getLsbD_of_ge x (j + n) (by omega)).symm ▸ BitVec.getLsbD_zero
    · by_cases h : n ≤ 32
      · simp [h]
      · simp [h, BitVec.getLsbD_of_ge x (n - 1) (by omega)]

theorem shiftByReg_asr (hj : j < 32) :
    (shiftByReg .asr n x c).value.getLsbD j = x.getLsbD (min 31 (j + n)) ∧
    (shiftByReg .asr n x c).carry = if n = 0 then c else x.getLsbD (min 31 (n - 1)) := by
  simp only [shiftByReg]
  split
  next zero => simp [zero, show min 31 j = j by omega]
  next =>
    split
    · exact ⟨sshiftRight_bit x n hj, by rw [show min 31 (n - 1) = n - 1 by omega]⟩
    · rw [signFill_bit _ hj, show min 31 (j + n) = 31 by omega, show min 31 (n - 1) = 31 by omega]
      exact ⟨rfl, rfl⟩

theorem shiftByReg_ror (hj : j < 32) :
    (shiftByReg .ror n x c).value.getLsbD j = x.getLsbD ((j + n) % 32) ∧
    (shiftByReg .ror n x c).carry = if n = 0 then c else x.getLsbD ((n + 31) % 32) := by
  simp only [shiftByReg]
  split
  next zero => simp [zero, Nat.mod_eq_of_lt hj]
  next =>
    split
    · rw [show (j + n) % 32 = j by omega, show (n + 31) % 32 = 31 by omega]
      exact ⟨rfl, rfl⟩
    · rw [rotateRight_bit x _ hj, Nat.add_mod_mod, show (n + 31) % 32 = n % 32 - 1 by omega]
      exact ⟨rfl, rfl⟩

end

theorem toNat_bottomByte (v : Word) : (v.extractLsb' 0 8).toNat = v.toNat % 256 := by
  simp

/-- Settles O4, shift by shift: the amount of a register shift is the register's bottom byte. -/
theorem shifterOperandBits : Obligations.ShifterOperandBits := by
  unfold Obligations.ShifterOperandBits
  intro rot imm sh k rs rm s j hj
  refine ⟨immOperand_bits rot imm s hj, rfl, ?_⟩
  simp only [immShiftOperand, regShiftOperand, toNat_bottomByte]
  cases k with
  | lsl => exact and_assoc.mp ⟨shiftByImm_lsl _ _ hj, shiftByReg_lsl _ _ hj⟩
  | lsr => exact and_assoc.mp ⟨shiftByImm_lsr _ _, shiftByReg_lsr _ _⟩
  | asr => exact and_assoc.mp ⟨shiftByImm_asr _ _ hj, shiftByReg_asr _ _ hj⟩
  | ror => exact ⟨shiftByImm_ror _ _ hj, shiftByReg_ror _ _ hj⟩

end Sys2Proof.Machine
end

section
/-! SUPPORT. Proofs: words of the spec, the instructions that raise, the reserved fields, the conditions. -/

namespace Sys2Proof.Machine

variable {s : State}

/-- Settles O60: the decoder evaluates on each word. -/
theorem decodeWords : Obligations.DecodeWords := by
  unfold Obligations.DecodeWords
  decide

/-- Settles O18: where the condition holds, each is one exception entry; a conditional BKPT stops. -/
theorem exceptionInstructions : Obligations.ExceptionInstructions := by
  unfold Obligations.ExceptionInstructions
  intro c i24 i20 i12 i8 i4 b rn rd s
  refine ⟨fun cond => ?_, rfl, rfl, rfl, rfl, fun other => ?_⟩
  · have undefined : onCond c raiseUndefined s = .next (s.raise .undefined) := onCond_pass raiseUndefined cond
    exact ⟨onCond_pass (fun s => .next (s.raise .swi)) cond, undefined, undefined⟩
  · have conditional : decide (c ≠ .al) = true := decide_eq_true other
    show refuseIf (decide (c ≠ .al)) .conditionalBkpt (raisePrefetchAbort s) = _
    rw [conditional, refuseIf_true]

/-- A guard that the condition lets through and that stops. -/
theorem onCond_refused {c : Cond} {t : Bool} {r : Refusal} {k : State → Result}
    (cond : Cond.holds c s.cpsr = true) (h : t = true) :
    onCond c (fun s => refuseIf t r (k s)) s = .refused r := by
  rw [onCond_pass _ cond, h, refuseIf_true]

/-- Settles O12: the first guard of each of these instructions reads its reserved fields. -/
theorem reservedFieldsStop : Obligations.ReservedFieldsStop := by
  unfold Obligations.ReservedFieldsStop
  intro c sf x y r f f' f'' rd rn rs rm mask rot imm sh k p u w low s cond
  refine ⟨fun h => ?_, fun h => ?_, fun h => ⟨?_, ?_⟩, fun h => ?_, fun h => ?_, fun h => ?_, fun h => ⟨?_, ?_⟩⟩
  case refine_1 =>
    have reserved : decide (f ≠ 0) = true := decide_eq_true h
    simp only [List.forall_mem_cons, List.not_mem_nil, IsEmpty.forall_iff, implies_true, and_true]
    and_intros
    all_goals
      apply onCond_refused cond
      exact reserved
  case refine_8 | refine_9 => exact if_pos (decide_eq_true h)
  all_goals
    apply onCond_refused cond
    exact decide_eq_true h

/-- An instruction with a condition runs under it. -/
theorem exec_skipped {i : Instr} {c : Cond} (h : condOf i = some c) (cond : Cond.holds c s.cpsr = false) :
    exec i s = s.done := by
  cases i
  all_goals cases h
  all_goals
    apply onCond_fail
    exact cond

/-- Settles O11: the table is checked by evaluation, the skip is `exec_skipped`, and PLD is the empty step. -/
theorem conditionsAndSkips : Obligations.ConditionsAndSkips := by
  unfold Obligations.ConditionsAndSkips
  exact ⟨fun p => rfl, fun i c s h cond => exec_skipped h cond, fun u rn rm imm sh k s => ⟨rfl, rfl⟩⟩

end Sys2Proof.Machine
end

section
/-! SUPPORT. Proofs: the access rules of CP15 and the values that its registers read as (R123 to R125, R127 to R129, R134, R136,
R138). -/

namespace Sys2Proof.Machine

variable {s : State} {c : Cond} {rd : Reg}

/-! ## Who may access CP15 -/

/-- In User mode an access of p15 is an undefined instruction (R124). -/
theorem cp15Op_user {k : State → Result} (cond : Cond.holds c s.cpsr = true) (user : s.privileged = false) :
    cp15Op c rd k s = .next (s.raise .undefined) := by
  rw [cp15Op, onCond_pass _ cond, user]
  rfl

/-- R15 as Rd stops (R123). -/
theorem cp15Op_pc {k : State → Result} (cond : Cond.holds c s.cpsr = true) (privileged : s.privileged = true) :
    cp15Op c 15 k s = .refused .r15Operand := by
  rw [cp15Op, onCond_pass _ cond, if_pos privileged]
  rfl

/-- Any other access is made. -/
theorem cp15Op_privileged {k : State → Result} (cond : Cond.holds c s.cpsr = true) (privileged : s.privileged = true)
    (rd15 : rd ≠ 15) : cp15Op c rd k s = k s := by
  have noPc : usesR15 [rd] = false := by
    rw [Bool.eq_false_iff, usesR15, ne_eq, List.contains_iff_mem, List.mem_singleton]
    exact rd15.symm
  rw [cp15Op, onCond_pass _ cond, if_pos privileged, noPc, refuseIf_false]

/-- Settles O41: every listed access is a `cp15Op`, whose guards are the rules above; an unlisted one only asks for the mode. -/
theorem cp15Access : Obligations.Cp15Access := by
  unfold Obligations.Cp15Access
  intro c l rd crn crm op1 op2 op2' s cond
  constructor
  · intro i listed
    have guarded : ∃ k, exec i = cp15Op c rd k := by
      revert i
      simp only [List.forall_mem_cons, List.not_mem_nil, IsEmpty.forall_iff, implies_true, and_true]
      and_intros
      all_goals exact ⟨_, rfl⟩
    obtain ⟨k, access⟩ := guarded
    rw [access]
    refine ⟨cp15Op_user cond, fun privileged pc => ?_⟩
    rw [pc, cp15Op_pc cond privileged]
  · exact onCond_pass (fun s => if s.privileged then .refused .cp15Unlisted else raiseUndefined s) cond

/-! ## What the registers read as -/

/-- Two fields side by side, as a number. -/
theorem toNat_append_add {n m : Nat} (x : BitVec n) (y : BitVec m) : (x ++ y).toNat = x.toNat * 2 ^ m + y.toNat := by
  rw [BitVec.toNat_append, ← Nat.shiftLeft_add_eq_or_of_lt y.isLt, Nat.shiftLeft_eq]

/-- A bit at its place, as a number. -/
theorem ite_two_pow (x : Bool) (n : Nat) : (if x then 2 ^ n else 0) = x.toNat * 2 ^ n := by
  cases x <;> simp

/-- The two size fields and the two absence bits (R31, R128). -/
theorem State.tcmSizeReg_eq (s : State) :
    s.tcmSizeReg = BitVec.ofNat 32 (s.pins.dtcmSize.toNat * 2 ^ 18 + s.pins.itcmSize.toNat * 2 ^ 6) +
      BitVec.ofNat 32 (if decide (s.pins.dtcmSize = 0) then 2 ^ 14 else 0) +
      BitVec.ofNat 32 (if decide (s.pins.itcmSize = 0) then 2 ^ 2 else 0) := by
  unfold State.tcmSizeReg
  generalize decide (s.pins.dtcmSize = 0) = noDtcm, decide (s.pins.itcmSize = 0) = noItcm
  have dtcm := s.pins.dtcmSize.isLt
  have itcm := s.pins.itcmSize.isLt
  rw [← BitVec.ofNat_add, ← BitVec.ofNat_add]
  apply BitVec.eq_of_toNat_eq
  simp only [toNat_append_add, BitVec.toNat_ofNat, BitVec.toNat_ofBool, ite_two_pow]
  have dtcmBit := noDtcm.toNat_lt
  have itcmBit := noItcm.toNat_lt
  omega

/-- The named bits of the Control Register (R33). -/
theorem Cp15.control_eq (k : Cp15) :
    let b (x : Bool) (n : Nat) : Word := BitVec.ofNat 32 (if x then 2 ^ n else 0)
    k.control = b k.lt 15 + b k.v 13 + b k.i 12 + b k.b 7 + b k.w 3 + b k.d 2 + b k.a 1 := by
  unfold Cp15.control
  generalize k.lt = lt, k.v = v, k.i = i, k.b = big, k.w = w, k.d = d, k.a = a
  revert lt v i big w d a
  decide

/-- The named bits of the Configuration Control Register (R37). -/
theorem Cp15.config_eq (k : Cp15) :
    let b (x : Bool) (n : Nat) : Word := BitVec.ofNat 32 (if x then 2 ^ n else 0)
    k.config = b k.iOrder 18 + b k.dOrder 17 + b k.ipbOff 16 + b k.fm 2 + b k.im 1 := by
  unfold Cp15.config
  generalize k.iOrder = iOrder, k.dOrder = dOrder, k.ipbOff = ipbOff, k.fm = fm, k.im = im
  revert iOrder dOrder ipbOff fm im
  decide

/-- One side of the BIST Control Register, as a number (R38). -/
theorem Bist.toNat_status (e : Bist) (present : Bool) :
    (e.status present).toNat = (if present then 32 * e.size.toNat else 0) + 16 * e.complete.toNat + 8 * e.fail.toNat +
      4 * e.enable.toNat + 2 * e.pause.toNat + e.running.toNat := by
  simp only [Bist.status, toNat_append_add, BitVec.toNat_ofBool]
  cases present
  · have noSize : (0 : BitVec 11).toNat = 0 := rfl
    rw [if_neg Bool.false_ne_true, if_neg Bool.false_ne_true, noSize]
    omega
  · rw [if_pos rfl, if_pos rfl]
    omega

/-- The two sides of the BIST Control Register, as one number (R38, R138). -/
theorem State.bistControl_eq (s : State) :
    s.bistControl = BitVec.ofNat 32
      (65536 * (s.cp15.bistI.status s.pins.bistI).toNat + (s.cp15.bistD.status s.pins.bistD).toNat) := by
  apply BitVec.eq_of_toNat_eq
  rw [State.bistControl, toNat_append_add, Nat.mul_comm, BitVec.toNat_ofNat, Nat.mod_eq_of_lt (by omega)]
  rfl

/-- The bits of the BIST Control Register that a read states (R138, U-T6). -/
theorem State.bistControlMask_eq (s : State) :
    s.bistControlMask =
      0x03FF03FF + (if s.pins.bistI then 0 else 0xFC000000) + (if s.pins.bistD then 0 else 0x0000FC00) := by
  have masks : ∀ itcm dtcm : Bool,
      (0x03FF03FF ||| (if itcm then 0 else 0xFC000000) ||| (if dtcm then 0 else 0x0000FC00) : Word) =
        0x03FF03FF + (if itcm then 0 else 0xFC000000) + (if dtcm then 0 else 0x0000FC00) := by decide
  exact masks s.pins.bistI s.pins.bistD

/-! ## The reads -/

/-- A read whose bits the spec states, all of them. -/
theorem cp15Read_stated {v : State → Word} (cond : Cond.holds c s.cpsr = true) (privileged : s.privileged = true)
    (rd15 : rd ≠ 15) : cp15Read c rd (fun s => (v s, s)) s = .next (s.wrote rd (v s)) :=
  cp15Op_privileged cond privileged rd15

/-- A read of which the spec states the bits of a mask: the others are the next free word's. -/
theorem cp15Read_free {v mask : State → Word} (cond : Cond.holds c s.cpsr = true) (privileged : s.privileged = true)
    (rd15 : rd ≠ 15) :
    cp15Read c rd (fun s => (partlyFree (v s) (mask s) s.takeWord.1, s.takeWord.2)) s =
      .next ({ s with freeCtr := s.freeCtr + 1 }.wrote rd
        ((v s &&& mask s) ||| (Config.freeWord s.freeCtr &&& ~~~mask s))) :=
  cp15Op_privileged cond privileged rd15

/-- Settles O39: each read gives its register, whose value is the sum of its fields. -/
theorem cp15ReadResult : Obligations.Cp15ReadResult := by
  unfold Obligations.Cp15ReadResult
  intro c rd crm op2 s cond privileged rd15 free p k b side
  have stated (v : State → Word) := cp15Read_stated (v := v) cond privileged rd15
  have partly (v mask : State → Word) := cp15Read_free (v := v) (mask := mask) cond privileged rd15
  refine ⟨fun _ => stated fun _ => idCode, ?_, ?_, stated fun s => s.cp15.procId, ?_, ?_⟩
  · have read : exec (.mrcTcmSize c rd) s = .next (s.wrote rd s.tcmSizeReg) := stated State.tcmSizeReg
    rw [read, s.tcmSizeReg_eq]
  · have read : exec (.mrcControl c rd) s = .next (free k.control controlMask) :=
      partly (fun s => s.cp15.control) fun _ => controlMask
    rw [read, k.control_eq, controlMask]
  · have read : exec (.mrcConfigControl c rd) s = .next (free k.config configMask) :=
      partly (fun s => s.cp15.config) fun _ => configMask
    rw [read, k.config_eq, configMask]
  · have read : exec (.mrcBistControl c rd) s = .next (free s.bistControl s.bistControlMask) :=
      partly State.bistControl State.bistControlMask
    rw [read, s.bistControl_eq, s.bistControlMask_eq, Bist.toNat_status, Bist.toNat_status]

end Sys2Proof.Machine
end

section
/-! SUPPORT. Proofs: what comes before the next instruction at a boundary: debug requests, standby, the ETM stall, FIQ, IRQ
(R132, R321, R323, R324, R341, R342). -/

namespace Sys2Proof.Machine

variable {s t : State}

/-! ## The start of a step without events -/

/-- The clock alone runs before the core's part. -/
theorem step_noEvents (env : s.env = []) : step s = coreStep s.begun := by
  have noEvents : s.begun.env = [] := by rw [s.begun_core]; exact env
  simp [step, beginStep, noEvents]

theorem State.begun_pins (s : State) : s.begun.pins = s.pins := by rw [s.begun_core]

theorem State.begun_dbg (s : State) : s.begun.dbg = s.dbg := by rw [s.begun_core]

theorem State.begun_cp (s : State) : s.begun.cp = s.cp := by rw [s.begun_core]

theorem State.begun_standby (s : State) : s.begun.standby = s.standby := by rw [s.begun_core]

theorem State.begun_debugRequest (s : State) : s.begun.debugRequest = s.debugRequest := by rw [s.begun_core]; rfl

theorem State.begun_takesFiq (s : State) : s.begun.takesFiq = s.takesFiq := by rw [s.begun_core]; rfl

theorem State.begun_takesIrq (s : State) : s.begun.takesIrq = s.takesIrq := by rw [s.begun_core]; rfl

theorem State.begun_wakes (s : State) : s.begun.wakes = s.wakes := by rw [s.begun_core]; rfl

/-! ## Which interrupt is taken -/

/-- FIQ is taken where its line is active and its mask bit clear (R321). -/
theorem State.takesFiq_iff : s.takesFiq = true ↔ s.fiqLine = true ∧ Psr.f s.cpsr = false := by
  simp [State.takesFiq]

/-- IRQ is taken where its line is active and its mask bit clear (R321). -/
theorem State.takesIrq_iff : s.takesIrq = true ↔ s.irqLine = true ∧ Psr.i s.cpsr = false := by
  simp [State.takesIrq]

/-- One of the two is taken. -/
theorem State.takes_iff : (s.takesFiq || s.takesIrq) = true ↔
    s.fiqLine = true ∧ Psr.f s.cpsr = false ∨ s.irqLine = true ∧ Psr.i s.cpsr = false := by
  rw [Bool.or_eq_true, State.takesFiq_iff, State.takesIrq_iff]

/-! ## A debug request -/

/-- In halt mode a debug request comes before an interrupt, standby and the stall (R324; entry 36). -/
theorem step_debugRequest (env : s.env = []) (running : s.dbg.inDebug = false) (request : s.debugRequest = true)
    (halt : s.dbg.monitor = false) : step s = debugRequested s.begun := by
  rw [step_noEvents env]
  simp [coreStep, s.begun_dbg, s.begun_debugRequest, running, request, halt]

/-- With no instruction to complete, or one that an interrupt abandons, the core enters debug state (R333; entry 27). -/
theorem debugRequested_enters (h : s.cp.waiting = none ∨ (s.takesFiq || s.takesIrq) = true) :
    debugRequested s = .next (enterDebug s) := by
  have goesOn : (s.cp.waiting.isSome && !(s.takesFiq || s.takesIrq)) = false := by
    rcases h with idle | taken
    · rw [idle]; rfl
    · rw [taken, Bool.not_true, Bool.and_false]
  rw [debugRequested, goesOn, if_neg Bool.false_ne_true]

/-- An instruction that a coprocessor keeps waiting is completed first (R333). -/
theorem debugRequested_waits (waits : s.cp.waiting ≠ none) (untaken : (s.takesFiq || s.takesIrq) = false) :
    debugRequested s = nextInstruction s := by
  rw [debugRequested, Option.isSome_iff_ne_none.mpr waits, untaken, Bool.not_false, Bool.and_self, if_pos rfl]

/-- What an abandoned instruction leaves of the coprocessors depends on them alone (R151). -/
theorem State.abandonCp_cp_congr (h : t.cp = s.cp) : t.abandonCp.cp = s.abandonCp.cp := by
  unfold State.abandonCp
  rw [h]
  split
  · exact h
  · simp only [State.setWaiting, State.sendCp, State.mapCp, h]

/-- Entering debug state changes no byte of memory. -/
theorem enterDebug_sameMemory (s : State) : SameMemory s (enterDebug s) := fun p => by
  cases p <;> simp [State.byteAt, enterDebug, enterDebugAt]

/-! ## A core that is not stopped -/

/-- Standby lasts while no line wakes the core (R132). -/
theorem step_standby (env : s.env = []) (running : s.dbg.inDebug = false) (noRequest : s.debugRequest = false)
    (standby : s.standby = true) (sleeps : s.wakes = false) : step s = .next s.begun := by
  rw [step_noEvents env]
  simp [coreStep, s.begun_dbg, s.begun_debugRequest, s.begun_standby, s.begun_wakes, running, noRequest, standby, sleeps]

/-- A core that is awake, or that a line wakes. -/
theorem step_awake (env : s.env = []) (running : s.dbg.inDebug = false) (noRequest : s.debugRequest = false)
    (awake : s.standby = false ∨ s.wakes = true) : step s = awakeStep s.atFetch := by
  have goesOn : (s.begun.standby && !s.begun.wakes) = false := by
    rw [s.begun_standby, s.begun_wakes]
    rcases awake with h | h <;> simp [h]
  rw [step_noEvents env]
  simp [coreStep, s.begun_dbg, s.begun_debugRequest, running, noRequest, goesOn, State.atFetch]

/-- The ETM stalls on instruction boundaries only (R341). -/
theorem awakeStep_stalled (stall : s.etmStall = true) (idle : s.cp.waiting = none) : awakeStep s = .next s := by
  simp [awakeStep, stall, idle]

/-- A core that is not stalled, or is not between instructions, goes on (R341). -/
theorem awakeStep_unstalled (free : s.etmStall = false ∨ s.cp.waiting ≠ none) :
    awakeStep s =
      if s.takesFiq then .next (s.enter .fiq) else if s.takesIrq then .next (s.enter .irq) else nextInstruction s := by
  have goesOn : (s.etmStall && s.cp.waiting.isNone) = false := by
    rcases free with flows | waits
    · rw [flows, Bool.false_and]
    · rw [Option.isNone_eq_false_iff.mpr (Option.isSome_iff_ne_none.mpr waits), Bool.and_false]
  rw [awakeStep, goesOn, if_neg Bool.false_ne_true]

/-! ## The obligation -/

theorem State.atFetch_etmStall (s : State) : s.atFetch.etmStall = s.etmStall := s.begun_etmStall

theorem State.atFetch_takesFiq (s : State) : s.atFetch.takesFiq = s.takesFiq := s.begun_takesFiq

theorem State.atFetch_takesIrq (s : State) : s.atFetch.takesIrq = s.takesIrq := s.begun_takesIrq

/-- Entering debug state from the start of a step: what the entry leaves as it was (R333). -/
theorem enterDebug_begun (s : State) :
    let u := enterDebug s.begun
    u.dbg.inDebug = true ∧ u.pc = s.pc ∧ u.regs = s.regs ∧ u.cpsr = s.cpsr ∧ u.spsr = s.spsr ∧ u.standby = false ∧
      u.dbg.fromThumb = s.thumb ∧ u.cp = s.abandonCp.cp ∧ SameMemory s u := by
  have core := s.begun_core
  have kept : (enterDebug s.begun).pc = s.begun.pc ∧ (enterDebug s.begun).regs = s.begun.regs ∧
      (enterDebug s.begun).cpsr = s.begun.cpsr ∧ (enterDebug s.begun).spsr = s.begun.spsr := by
    simp [enterDebug, enterDebugAt]
  obtain ⟨pc, regs, cpsr, spsr⟩ := kept
  have thumb : (enterDebug s.begun).dbg.fromThumb = s.begun.thumb := by
    simp [enterDebug, enterDebugAt, State.thumb]
  have cp : (enterDebug s.begun).cp = s.abandonCp.cp := State.abandonCp_cp_congr (t := s.begun.takeWord.2) s.begun_cp
  refine ⟨rfl, ?_, ?_, ?_, ?_, rfl, ?_, cp, s.begun_memory.trans (enterDebug_sameMemory _)⟩
  · rw [pc, core]
  · rw [regs, core]
  · rw [cpsr, core]
  · rw [spsr, core]
  · rw [thumb, core]; rfl

/-- Settles O50: the parts of a step in their order, debug request, standby, stall, FIQ, IRQ. -/
theorem interruptsAreTaken : Obligations.InterruptsAreTaken := by
  unfold Obligations.InterruptsAreTaken
  intro s env running awake t fiq irq taken
  have taken_iff : (s.takesFiq || s.takesIrq) = true ↔ taken := State.takes_iff
  constructor
  · intro request halt
    have asked := step_debugRequest env running request halt
    constructor
    · intro free
      have enters : debugRequested s.begun = .next (enterDebug s.begun) := by
        apply debugRequested_enters
        rw [s.begun_cp, s.begun_takesFiq, s.begun_takesIrq, taken_iff]
        exact free
      exact ⟨_, asked.trans enters, enterDebug_begun s⟩
    · intro waits untaken
      have untaken' : (s.begun.takesFiq || s.begun.takesIrq) = false := by
        rw [s.begun_takesFiq, s.begun_takesIrq, Bool.eq_false_iff, ne_eq, taken_iff]
        exact untaken
      rw [asked, debugRequested_waits (s.begun_cp ▸ waits) untaken']
  · intro noRequest unwatched
    have watch : s.atFetch.dbg.watch = .none := by rw [s.atFetch_dbg, unwatched]
    have goes := step_awake env running noRequest
    have unstalled (free : s.etmStall = false ∨ s.cp.waiting ≠ none) :=
      awakeStep_unstalled (s := s.atFetch) (by rwa [s.atFetch_etmStall, s.atFetch_cp])
    refine ⟨fun standby noFiq noIrq => ?_, fun wakes stall idle => ?_, fun free => ⟨fun line mask => ?_, ?_⟩⟩
    · have sleeps : s.wakes = false := Bool.or_eq_false_iff.mpr ⟨noFiq, noIrq⟩
      exact step_standby env running noRequest standby sleeps
    · have woken : s.standby = false ∨ s.wakes = true := wakes.imp_right Bool.or_eq_true_iff.mpr
      rw [goes woken, awakeStep_stalled (s.atFetch_etmStall.trans stall) (s.atFetch_cp ▸ idle)]
    · have takes : s.takesFiq = true := State.takesFiq_iff.mpr ⟨line, mask⟩
      have woken : s.wakes = true := Bool.or_eq_true_iff.mpr (.inl line)
      rw [goes (.inr woken), unstalled free, s.atFetch_takesFiq, takes, if_pos rfl, enter_unwatched _ watch]
      simp [t, awake]
    · intro noFiq line mask
      have takes : s.takesIrq = true := State.takesIrq_iff.mpr ⟨line, mask⟩
      have untaken : s.takesFiq = false := by
        rcases noFiq with off | masked
        · exact Bool.and_eq_false_iff.mpr (.inl off)
        · simp [State.takesFiq, masked]
      have woken : s.wakes = true := Bool.or_eq_true_iff.mpr (.inr line)
      rw [goes (.inr woken), unstalled free, s.atFetch_takesFiq, s.atFetch_takesIrq, untaken, takes,
        if_neg Bool.false_ne_true, if_pos rfl, enter_unwatched _ watch]
      simp [t, awake]

end Sys2Proof.Machine
end

section
/-! SUPPORT. Proofs: a word read from a coprocessor, and the accesses of CP14 (R158, R162 to R168). -/

namespace Sys2Proof.Machine

variable {s : State} {c : Cond} {rd : Reg}

/-! ## A word read from a coprocessor (R158) -/

theorem State.setCpsr_setNzcv_nextPc (s : State) (n z c v : Bool) :
    (s.setCpsr (Psr.setNzcv s.cpsr n z c v)).nextPc = s.nextPc := by
  rw [State.nextPc, State.nextPc, State.len, State.len, State.setCpsr_thumb, Psr.setNzcv_t]
  rfl

/-- The word goes to Rd, or its bits [31:28] into the flags where Rd is R15. -/
theorem writeFromCoprocessor_eq (rd : Reg) (d : Word) (s : State) :
    writeFromCoprocessor rd d s = .next
      (if rd = 15 then
        s.flagged (Psr.setNzcv s.cpsr (d.getLsbD 31) (d.getLsbD 30) (d.getLsbD 29) (d.getLsbD 28))
      else s.wrote rd d) := by
  unfold writeFromCoprocessor
  split
  · rw [State.advance, State.setCpsr_setNzcv_nextPc]
    rfl
  · rfl

/-! ## Who may access CP14 -/

theorem usesR15_nil : usesR15 [] = false := rfl

theorem usesR15_cons (x : Reg) (rs : List Reg) : usesR15 (x :: rs) = (decide (x = 15) || usesR15 rs) := by
  rw [usesR15, List.contains_cons, usesR15, Bool.beq_eq_decide_eq, decide_eq_decide.mpr eq_comm]

theorem refuseIf_eq_ite (p : Prop) [Decidable p] (why : Refusal) (k : Result) :
    refuseIf (decide p) why k = if p then .refused why else k := by
  by_cases h : p <;> simp [refuseIf, h]

/-- User mode has no access (R162). -/
theorem cp14Op_user {k : State → Result} (cond : Cond.holds c s.cpsr = true) (user : s.privileged = false) :
    cp14Op c k s = .refused .cp14User := by
  rw [cp14Op, onCond_pass _ cond, user]
  rfl

/-- In a privileged mode the access is made. -/
theorem cp14Op_privileged {k : State → Result} (cond : Cond.holds c s.cpsr = true) (privileged : s.privileged = true) :
    cp14Op c k s = k s := by
  rw [cp14Op, onCond_pass _ cond, privileged]
  rfl

/-- A read of CP14 ends like an MRC; it may leave a state of its own, `after`. -/
theorem cp14Read_privileged (value : State → Word) (after : State → State) (cond : Cond.holds c s.cpsr = true)
    (privileged : s.privileged = true) (cpsr : (after s).cpsr = s.cpsr) :
    cp14Op c (fun s => writeFromCoprocessor rd (value s) (after s)) s = .next
      (if rd = 15 then (after s).flagged (Psr.setNzcv s.cpsr ((value s).getLsbD 31) ((value s).getLsbD 30)
          ((value s).getLsbD 29) ((value s).getLsbD 28))
        else (after s).wrote rd (value s)) := by
  rw [cp14Op_privileged cond privileged, writeFromCoprocessor_eq, cpsr]

/-- A write of CP14: Rd is not R15 (R157). -/
theorem cp14Write_privileged (write : State → State) (cond : Cond.holds c s.cpsr = true)
    (privileged : s.privileged = true) :
    cp14Op c (fun s => refuseIf (usesR15 [rd]) .r15Operand (write s).done) s =
      if rd = 15 then .refused .r15Operand else (write s).done := by
  rw [cp14Op_privileged cond privileged, usesR15_cons, usesR15_nil, Bool.or_false, refuseIf_eq_ite]

/-- Settles O44: every listed access is a `cp14Op`; a read ends like an MRC, a write excludes R15. -/
theorem cp14Result : Obligations.Cp14Result := by
  unfold Obligations.Cp14Result
  intro c l rd crn crm op1 op2 s cond read
  refine ⟨fun privileged => ⟨?_, ?_, ?_, ?_, ?_⟩, fun user i listed => ?_,
    onCond_pass (fun _ => .refused .cp14Unlisted) cond⟩
  · exact cp14Read_privileged (fun s => Config.iceVersion ++ (Config.freeWord s.freeCtr).extractLsb' 2 26 ++
      BitVec.ofBool s.dcc.w ++ BitVec.ofBool s.dcc.r) (fun s => s.takeWord.2) cond privileged rfl
  · exact cp14Read_privileged (fun s => s.dcc.readData) (fun s => { s with dcc := { s.dcc with r := false } }) cond
      privileged rfl
  · exact cp14Read_privileged (fun s => bitWord s.dcc.dbgAbt) id cond privileged rfl
  · exact cp14Write_privileged (fun s => { s with dcc := { s.dcc with writeData := s.reg rd, w := true } }) cond privileged
  · exact cp14Write_privileged (fun s => { s with dcc := { s.dcc with dbgAbt := (s.reg rd).getLsbD 0 } }) cond privileged
  · have guarded : ∃ k, exec i = cp14Op c k := by
      revert i
      simp only [List.forall_mem_cons, List.not_mem_nil, IsEmpty.forall_iff, implies_true, and_true]
      and_intros
      all_goals exact ⟨_, rfl⟩
    obtain ⟨k, access⟩ := guarded
    rw [access, cp14Op_user cond user]

end Sys2Proof.Machine
end

section
/-! SUPPORT. Proofs: the handshake of the coprocessor instructions, and what the register transfers do when it is over (R148,
R149, R151, R154, R157 to R161). -/

namespace Sys2Proof.Machine

variable {s t r : State} {n : Reg} {i : Instr} {moved : List Word} {rs : List CpReply}

/-! ## The forms with and without a condition -/

/-- A coprocessor instruction and its form with cond = 1111 do the same once the one passes its condition and the other is
addressed to an external coprocessor (R161). -/
theorem exec_coprocessorForms {f : Instr → State → Result} {plain twin : Instr} {c : Cond}
    (plainForm : exec plain = onCond c (f plain)) (twinForm : exec twin s = externalOnly n (f twin s))
    (cond : Cond.holds c s.cpsr = true) (external : externalCp n = true) : ∀ i ∈ [plain, twin], exec i s = f i s := by
  simp only [List.forall_mem_cons, List.not_mem_nil, IsEmpty.forall_iff, implies_true, and_true]
  constructor
  · rw [plainForm, onCond_pass _ cond]
  · rw [twinForm, externalOnly, external]
    rfl

section

variable {c : Cond} {o3 op2 : BitVec 3} {o4 : BitVec 4} {crn rn rd cp crm : Reg}

theorem exec_cdp (cond : Cond.holds c s.cpsr = true) (external : externalCp cp = true) :
    ∀ i ∈ [Instr.cdp c o4 crn rd cp op2 crm, .cdp2 o4 crn rd cp op2 crm], exec i s = coprocessorOperation cp i s :=
  exec_coprocessorForms rfl rfl cond external

theorem exec_mcr (cond : Cond.holds c s.cpsr = true) (external : externalCp cp = true) :
    ∀ i ∈ [Instr.mcr c o3 crn rd cp op2 crm, .mcr2 o3 crn rd cp op2 crm], exec i s = moveToCoprocessor cp i [rd] s :=
  exec_coprocessorForms (f := fun i => moveToCoprocessor cp i [rd]) rfl rfl cond external

theorem exec_mrc (cond : Cond.holds c s.cpsr = true) (external : externalCp cp = true) :
    ∀ i ∈ [Instr.mrc c o3 crn rd cp op2 crm, .mrc2 o3 crn rd cp op2 crm], exec i s = moveFromCoprocessor cp i rd s :=
  exec_coprocessorForms (f := fun i => moveFromCoprocessor cp i rd) rfl rfl cond external

theorem exec_mcrr (cond : Cond.holds c s.cpsr = true) :
    exec (.mcrr c rn rd cp o4 crm) s = moveToCoprocessor cp (.mcrr c rn rd cp o4 crm) [rd, rn] s :=
  onCond_pass _ cond

theorem exec_mrrc (cond : Cond.holds c s.cpsr = true) :
    exec (.mrrc c rn rd cp o4 crm) s = moveTwoFromCoprocessor cp (.mrrc c rn rd cp o4 crm) rd rn s :=
  onCond_pass (moveTwoFromCoprocessor cp _ rd rn) cond

end

/-! ## The forms that are not UNPREDICTABLE -/

theorem usesR15_one {rd : Reg} (rd15 : rd ≠ 15) : usesR15 [rd] = false := by
  rw [usesR15_cons, decide_eq_false rd15, usesR15_nil, Bool.or_false]

theorem usesR15_two {rd rn : Reg} (rd15 : rd ≠ 15) (rn15 : rn ≠ 15) : usesR15 [rd, rn] = false := by
  rw [usesR15_cons, decide_eq_false rd15, usesR15_one rn15, Bool.or_false]

/-- What follows the handshake of an MCR or MCRR. -/
def sendRegisters (n : Reg) (regs : List Reg) : List Word → State → Result := fun _ t =>
  (regs.foldl (fun u x => u.sendCp n (.data (t.reg x))) t).done

/-- What follows the handshake of an MRRC. -/
def writeTwo (rd rn : Reg) : List Word → State → Result := fun ws t =>
  .next ((((firstOfTwo ws t).2.setReg rd (firstOfTwo ws t).1).setReg rn (ws.getLast?.getD 0)).advance)

theorem moveToCoprocessor_eq {regs : List Reg} (noPc : usesR15 regs = false) :
    moveToCoprocessor n i regs s = coprocessorInstr n i 0 takeCpdin (sendRegisters n regs) s := by
  rw [moveToCoprocessor, noPc]
  rfl

theorem moveTwoFromCoprocessor_eq {rd rn : Reg} (rn15 : rn ≠ 15) (rd15 : rd ≠ 15) (apart : rd ≠ rn) :
    moveTwoFromCoprocessor n i rd rn s = coprocessorInstr n i 0 takeCpdin (writeTwo rd rn) s := by
  rw [moveTwoFromCoprocessor, usesR15_two rn15 rd15, if_neg Bool.false_ne_true, if_neg apart]
  rfl

section

variable {c : Cond} {o3 op2 : BitVec 3} {o4 : BitVec 4} {crn rn rd cp crm : Reg} {a : CpIndexing} {long : Bool}
  {imm : BitVec 8}

/-- Every external coprocessor instruction is a handshake. -/
theorem exec_isHandshake (cond : Cond.holds c s.cpsr = true) (external : externalCp cp = true) :
    ∀ i ∈ [Instr.cdp c o4 crn rd cp op2 crm, .cdp2 o4 crn rd cp op2 crm, .mcr c o3 crn rd cp op2 crm,
        .mcr2 o3 crn rd cp op2 crm, .mrc c o3 crn rd cp op2 crm, .mrc2 o3 crn rd cp op2 crm, .mcrr c rn rd cp o4 crm,
        .mrrc c rn rd cp o4 crm, .ldc c a long rn rd cp imm, .ldc2 a long rn rd cp imm, .stc c a long rn rd cp imm,
        .stc2 a long rn rd cp imm],
      ∃ limit move k, exec i s = coprocessorInstr cp i limit move k s := by
  have cdp := exec_cdp (o4 := o4) (crn := crn) (rd := rd) (op2 := op2) (crm := crm) cond external
  have mcr := exec_mcr (o3 := o3) (crn := crn) (rd := rd) (op2 := op2) (crm := crm) cond external
  have mrc := exec_mrc (o3 := o3) (crn := crn) (rd := rd) (op2 := op2) (crm := crm) cond external
  have ldc : ∀ i ∈ [Instr.ldc c a long rn rd cp imm, .ldc2 a long rn rd cp imm],
      exec i s = loadCoprocessor cp i a rn imm s := fun _ member => exec_ldc member cond external
  have stc : ∀ i ∈ [Instr.stc c a long rn rd cp imm, .stc2 a long rn rd cp imm],
      exec i s = storeCoprocessor cp i a rn imm s := fun _ member => exec_stc member cond external
  have moveTwo (i : Instr) :
      ∃ limit move k, moveTwoFromCoprocessor cp i rd rn s = coprocessorInstr cp i limit move k s := by
    unfold moveTwoFromCoprocessor
    exact ⟨_, _, _, rfl⟩
  have load (i : Instr) : ∃ limit move k, loadCoprocessor cp i a rn imm s = coprocessorInstr cp i limit move k s := by
    unfold loadCoprocessor
    exact ⟨_, _, _, rfl⟩
  have store (i : Instr) : ∃ limit move k, storeCoprocessor cp i a rn imm s = coprocessorInstr cp i limit move k s := by
    unfold storeCoprocessor
    exact ⟨_, _, _, rfl⟩
  simp only [List.forall_mem_cons, List.not_mem_nil, IsEmpty.forall_iff, implies_true, and_true] at cdp mcr mrc ldc stc ⊢
  exact ⟨⟨_, _, _, cdp.1⟩, ⟨_, _, _, cdp.2⟩, ⟨_, _, _, mcr.1⟩, ⟨_, _, _, mcr.2⟩, ⟨_, _, _, mrc.1⟩, ⟨_, _, _, mrc.2⟩,
    ⟨_, _, _, exec_mcrr cond⟩, exec_mrrc cond ▸ moveTwo _,
    ldc.1 ▸ load _, ldc.2 ▸ load _, stc.1 ▸ store _, stc.2 ▸ store _⟩

/-- The operation and the register transfers take only words on CPDIN, unless they are UNPREDICTABLE (U-G14). -/
theorem exec_registerTransfer (cond : Cond.holds c s.cpsr = true) (external : externalCp cp = true) :
    ∀ x ∈ [(Instr.cdp c o4 crn rd cp op2 crm, True), (.cdp2 o4 crn rd cp op2 crm, True),
        (.mcr c o3 crn rd cp op2 crm, rd ≠ 15), (.mcr2 o3 crn rd cp op2 crm, rd ≠ 15),
        (.mrc c o3 crn rd cp op2 crm, True), (.mrc2 o3 crn rd cp op2 crm, True),
        (.mcrr c rn rd cp o4 crm, rn ≠ 15 ∧ rd ≠ 15), (.mrrc c rn rd cp o4 crm, rn ≠ 15 ∧ rd ≠ 15 ∧ rd ≠ rn)],
      x.2 → ∃ k, exec x.1 s = coprocessorInstr cp x.1 0 takeCpdin k s := by
  have cdp := exec_cdp (o4 := o4) (crn := crn) (rd := rd) (op2 := op2) (crm := crm) cond external
  have mcr := exec_mcr (o3 := o3) (crn := crn) (rd := rd) (op2 := op2) (crm := crm) cond external
  have mrc := exec_mrc (o3 := o3) (crn := crn) (rd := rd) (op2 := op2) (crm := crm) cond external
  simp only [List.forall_mem_cons, List.not_mem_nil, IsEmpty.forall_iff, implies_true, and_true] at cdp mcr mrc ⊢
  exact ⟨fun _ => ⟨_, cdp.1⟩, fun _ => ⟨_, cdp.2⟩,
    fun rd15 => ⟨_, mcr.1.trans (moveToCoprocessor_eq (usesR15_one rd15))⟩,
    fun rd15 => ⟨_, mcr.2.trans (moveToCoprocessor_eq (usesR15_one rd15))⟩,
    fun _ => ⟨_, mrc.1⟩, fun _ => ⟨_, mrc.2⟩,
    fun ⟨rn15, rd15⟩ => ⟨_, (exec_mcrr cond).trans (moveToCoprocessor_eq (usesR15_two rd15 rn15))⟩,
    fun ⟨rn15, rd15, apart⟩ => ⟨_, (exec_mrrc cond).trans (moveTwoFromCoprocessor_eq rn15 rd15 apart)⟩⟩

end

/-! ## The cycles (R148) -/

theorem setReplies_twice (s : State) (n : Reg) (a b : List CpReply) :
    (s.setReplies n a).setReplies n b = s.setReplies n b :=
  congrArg s.withCp (setReplies_setReplies s n a b)

/-- Cycles with GO in which only words on CPDIN are taken; only the cycles to come change. -/
theorem handshakeCycles_go (n : Reg) (ws : List Word) (tail : List CpReply) (moved : List Word) (t : State) :
    ∃ u, handshakeCycles n 0 takeCpdin (ws.map .go ++ tail) moved t = handshakeCycles n 0 takeCpdin tail (moved ++ ws) u ∧
      ∀ q, u.setReplies n q = t.setReplies n q := by
  induction ws generalizing moved t with
  | nil => exact ⟨t, by simp, fun _ => rfl⟩
  | cons w ws ih =>
    obtain ⟨u, rest, same⟩ := ih (moved ++ [w]) (t.setReplies n (ws.map .go ++ tail))
    refine ⟨u, ?_, fun q => (same q).trans (setReplies_twice t n _ q)⟩
    rw [List.append_assoc] at rest
    exact rest

/-- The end of the handshake of an instruction that moves no word of memory, after any number of cycles with GO. -/
theorem coprocessorInstr_go {k : List Word → State → Result} {ws : List Word} {tail : List CpReply}
    (offer : s.offers n i moved r) (replies : s.cpReplies n = ws.map .go ++ tail) :
    ∃ u, coprocessorInstr n i 0 takeCpdin k s = (handshakeCycles n 0 takeCpdin tail (moved ++ ws) u).ends i k ∧
      ∀ q, u.setReplies n q = r.setReplies n q := by
  obtain ⟨u, run, same⟩ := handshakeCycles_go n ws tail moved r
  exact ⟨u, by rw [coprocessorInstr_offers offer, replies, run], same⟩

theorem coprocessorInstr_go_absent {k : List Word → State → Result} {ws : List Word} (offer : s.offers n i moved r)
    (replies : s.cpReplies n = ws.map .go ++ .absent :: rs) :
    coprocessorInstr n i 0 takeCpdin k s = .next ((r.answered n rs).raise .undefined) := by
  obtain ⟨u, run, same⟩ := coprocessorInstr_go (k := k) offer replies
  rw [run, State.answered, ← same]
  rfl

theorem coprocessorInstr_go_wait {k : List Word → State → Result} {ws : List Word} (offer : s.offers n i moved r)
    (replies : s.cpReplies n = ws.map .go ++ .wait :: rs) :
    coprocessorInstr n i 0 takeCpdin k s =
      .next ((r.setReplies n rs).setWaiting (some { instr := Code.word (encode i), moved := moved ++ ws })) := by
  obtain ⟨u, run, same⟩ := coprocessorInstr_go (k := k) offer replies
  rw [run, ← same]
  rfl

/-- LAST completes the instruction, with all the words of its cycles. -/
theorem coprocessorInstr_go_last {k : List Word → State → Result} {ws : List Word} {w : Word} (offer : s.offers n i moved r)
    (replies : s.cpReplies n = ws.map .go ++ .last w :: rs) :
    coprocessorInstr n i 0 takeCpdin k s = k (moved ++ ws ++ [w]) (r.answered n rs) := by
  obtain ⟨u, run, same⟩ := coprocessorInstr_go (k := k) offer replies
  rw [run, State.answered, ← same]
  rfl

/-- Before any word, whatever the instruction would move: nothing driven and ABSENT take the exception (R149), WAIT keeps the
instruction waiting. -/
theorem coprocessorInstr_first (offer : s.offers n i moved r) (limit : Nat) (move : Transfer)
    (k : List Word → State → Result) :
    (s.cpReplies n = [] → coprocessorInstr n i limit move k s = .next ((r.setWaiting none).raise .undefined)) ∧
    (s.cpReplies n = .absent :: rs → coprocessorInstr n i limit move k s = .next ((r.answered n rs).raise .undefined)) ∧
    (s.cpReplies n = .wait :: rs → coprocessorInstr n i limit move k s =
      .next ((r.setReplies n rs).setWaiting (some { instr := Code.word (encode i), moved := moved }))) ∧
    (s.cpReplies n = .waitForever :: rs → coprocessorInstr n i limit move k s =
      .next (r.setWaiting (some { instr := Code.word (encode i), moved := moved }))) := by
  rw [coprocessorInstr_offers offer]
  refine ⟨?_, ?_, ?_, ?_⟩
  all_goals
    intro replies
    rw [replies]
    rfl

/-! ## What the register transfers do when the handshake is over -/

/-- An answered instruction has changed the coprocessors only. -/
theorem answered_withCp (offer : s.offers n i moved r) (rs : List CpReply) :
    ∃ cps, r.answered n rs = s.withCp cps := by
  rcases offer with ⟨-, -, rfl⟩ | ⟨-, rfl⟩
  · exact ⟨_, rfl⟩
  · exact ⟨_, rfl⟩

theorem done_answered (offer : s.offers n i moved r) :
    (r.answered n rs).done = .next { r.answered n rs with pc := s.nextPc } := by
  obtain ⟨cps, same⟩ := answered_withCp offer rs
  rw [same]
  rfl

theorem sendWords_nextPc (s : State) (n : Reg) (ws : List Word) : (s.sendWords n ws).nextPc = s.nextPc := by
  induction ws generalizing s with
  | nil => rfl
  | cons w ws ih => exact ih _

/-- The coprocessor receives the registers as they were when the instruction began (R157, R159). -/
theorem sendRegisters_answered (offer : s.offers n i moved r) (ws : List Word) (regs : List Reg) :
    sendRegisters n regs ws (r.answered n rs) =
      .next { (r.answered n rs).sendWords n (regs.map s.reg) with pc := s.nextPc } := by
  obtain ⟨cps, same⟩ := answered_withCp offer rs
  have sent (u : State) : regs.foldl (fun u x => u.sendCp n (.data ((r.answered n rs).reg x))) u =
      u.sendWords n (regs.map s.reg) := by
    rw [State.sendWords, List.foldl_map, same]
    rfl
  rw [sendRegisters, sent, State.done, State.advance, sendWords_nextPc, same]
  rfl

theorem writeFromCoprocessor_answered (offer : s.offers n i moved r) (rd : Reg) (w : Word) :
    writeFromCoprocessor rd w (r.answered n rs) = .next
      (if rd = 15 then
        (r.answered n rs).flagged (Psr.setNzcv s.cpsr (w.getLsbD 31) (w.getLsbD 30) (w.getLsbD 29) (w.getLsbD 28))
      else (r.answered n rs).wrote rd w) := by
  obtain ⟨cps, same⟩ := answered_withCp offer rs
  rw [writeFromCoprocessor_eq, same]
  rfl

/-- The first word of an MRRC is the one of the cycle before the last. -/
theorem firstOfTwo_concat_some {ws : List Word} {w0 : Word} (w : Word) (before : ws.getLast? = some w0) (t : State) :
    firstOfTwo (ws ++ [w]) t = (w0, t) := by
  rw [firstOfTwo, List.dropLast_concat, before]

/-- A coprocessor that drives only one word leaves the first one open. -/
theorem firstOfTwo_singleton (w : Word) (t : State) : firstOfTwo [w] t = t.takeWord := rfl

theorem writeTwo_answered (offer : s.offers n i moved r) (rd rn : Reg) {ws : List Word} {w w0 : Word}
    (before : ws.getLast? = some w0) :
    writeTwo rd rn (ws ++ [w]) (r.answered n rs) =
      .next { r.answered n rs with regs := s.withRegs2 rd w0 rn w, pc := s.nextPc } := by
  obtain ⟨cps, same⟩ := answered_withCp offer rs
  rw [writeTwo, firstOfTwo_concat_some w before, List.getLast?_concat, same]
  rfl

theorem writeTwo_answered_one (offer : s.offers n i moved r) (rd rn : Reg) (w : Word) :
    writeTwo rd rn [w] (r.answered n rs) =
      .next { r.answered n rs with
        regs := s.withRegs2 rd (Config.freeWord s.freeCtr) rn w, freeCtr := s.freeCtr + 1, pc := s.nextPc } := by
  obtain ⟨cps, same⟩ := answered_withCp offer rs
  rw [writeTwo, firstOfTwo_singleton, same]
  rfl

/-- Settles O45: every form is a `coprocessorInstr`; its first cycle is `coprocessorInstr_first`, the cycles with GO and the end
after them are those of `coprocessorInstr_go`, and what follows LAST is said by the lemma of each transfer. -/
theorem coprocessorHandshake : Obligations.CoprocessorHandshake := by
  unfold Obligations.CoprocessorHandshake
  intro c o3 o4 crn rn rd cp crm op2 long a imm rs moved ws w w0 s r cond external taken waits words after
  refine ⟨fun i member offer => ?_, fun x member legal offer => ?_, fun replies => ⟨fun i member offer => ?_,
    fun rd15 i member offer => ?_, fun rn15 rd15 offer => ?_, fun i member offer => ?_, fun rn15 rd15 apart offer =>
      ⟨fun before => ?_, fun first => ?_⟩⟩⟩
  · obtain ⟨limit, move, k, run⟩ := exec_isHandshake cond external i member
    rw [run]
    exact coprocessorInstr_first offer limit move k
  · obtain ⟨k, run⟩ := exec_registerTransfer cond external x member legal
    rw [run]
    exact ⟨coprocessorInstr_go_absent offer, coprocessorInstr_go_wait offer⟩
  · rw [exec_cdp cond external i member, coprocessorOperation, coprocessorInstr_go_last offer replies]
    exact done_answered offer
  · rw [exec_mcr cond external i member, moveToCoprocessor_eq (usesR15_one rd15), coprocessorInstr_go_last offer replies]
    exact sendRegisters_answered offer _ [rd]
  · rw [exec_mcrr cond, moveToCoprocessor_eq (usesR15_two rd15 rn15), coprocessorInstr_go_last offer replies]
    exact sendRegisters_answered offer _ [rd, rn]
  · rw [exec_mrc cond external i member, moveFromCoprocessor, coprocessorInstr_go_last offer replies, List.getLast?_concat]
    exact writeFromCoprocessor_answered offer rd w
  · rw [exec_mrrc cond, moveTwoFromCoprocessor_eq rn15 rd15 apart, coprocessorInstr_go_last offer replies]
    exact writeTwo_answered offer rd rn before
  · rw [exec_mrrc cond, moveTwoFromCoprocessor_eq rn15 rd15 apart, coprocessorInstr_go_last offer replies, first]
    exact writeTwo_answered_one offer rd rn w

end Sys2Proof.Machine
end

section
/-! SUPPORT. Proofs: the sixteen data-processing operations in their three operand forms (R170 to R187). -/

namespace Sys2Proof.Machine

variable {s : State}

/-! ## Sums and differences (R176 to R178) -/

/-- The top bit of a word is its sign. -/
theorem getLsbD_sign (x : Word) : x.getLsbD 31 = decide (2147483648 ≤ x.toNat) :=
  BitVec.msb_eq_decide x

/-- A word as a signed integer, by its sign. -/
theorem toInt_of_sign (x : Word) : x.toInt = if 2147483648 ≤ x.toNat then (x.toNat : Int) - 4294967296 else x.toNat := by
  rw [BitVec.toInt_eq_toNat_cond]
  split <;> split <;> omega

theorem toNat_bitWord (b : Bool) : (bitWord b).toNat = b.toNat := by
  cases b <;> rfl

/-- The wrapped sum is the exact sum as a word. -/
theorem add_bitWord_eq (x y : Word) (cin : Bool) :
    x + y + bitWord cin = BitVec.ofNat 32 (x.toNat + y.toNat + cin.toNat) := by
  apply BitVec.eq_of_toNat_eq
  simp [toNat_bitWord]

/-- The sum does not fit 32 bits exactly where the operands have one sign and the result the other. -/
theorem signed_overflow_iff (x y : Word) (cin : Bool) :
    let r := BitVec.ofNat 32 (x.toNat + y.toNat + cin.toNat)
    r.toInt ≠ x.toInt + y.toInt + cin.toNat ↔
      (2147483648 ≤ x.toNat ↔ 2147483648 ≤ y.toNat) ∧ ¬(2147483648 ≤ r.toNat ↔ 2147483648 ≤ x.toNat) := by
  intro r
  have wrapped : r.toNat = (x.toNat + y.toNat + cin.toNat) % 4294967296 := BitVec.toNat_ofNat ..
  have hx := x.isLt
  have hy := y.isLt
  have carry : cin.toNat ≤ 1 := Bool.toNat_le cin
  rw [toInt_of_sign r, toInt_of_sign x, toInt_of_sign y, wrapped]
  split <;> split <;> split <;> omega

/-- The model's addition is the sum of R177. -/
theorem addFlags_eq_sumRule (x y : Word) (cin : Bool) : addFlags x y cin = sumRule x y cin := by
  simp only [addFlags, sumRule, add_bitWord_eq, getLsbD_sign, AluOut.mk.injEq, true_and]
  refine ⟨rfl, ?_⟩
  rw [Bool.eq_iff_iff, decide_eq_true_iff]
  exact (signed_overflow_iff x y cin).trans (by simp)

/-- A subtraction is the sum with NOT (R178). -/
theorem subFlags_eq_addFlags (x y : Word) (cin : Bool) : subFlags x y cin = addFlags x (~~~y) cin := by
  have hy := y.isLt
  have not_nat : (~~~y).toNat = 4294967295 - y.toNat := BitVec.toNat_not
  have not_int : (~~~y).toInt = -1 - y.toInt := by
    rw [toInt_of_sign, toInt_of_sign, not_nat]
    split <;> split <;> omega
  have result : x - y - bitWord (!cin) = x + ~~~y + bitWord cin := by
    rw [BitVec.not_eq_neg_add]
    cases cin <;> simp [bitWord] <;> ring
  simp only [subFlags, addFlags, result, not_nat, not_int, AluOut.mk.injEq, true_and, decide_eq_decide]
  cases cin <;> simp <;> omega

theorem subFlags_eq_sumRule (x y : Word) (cin : Bool) : subFlags x y cin = sumRule x (~~~y) cin :=
  (subFlags_eq_addFlags x y cin).trans (addFlags_eq_sumRule x (~~~y) cin)

/-- Each operation computes what its rule says (R172 to R187). -/
theorem AluOp.compute_eq_rule (op : AluOp) (a b : Word) (carry : Bool) (p : Word) :
    op.compute a b carry p = op.rule a b carry p := by
  cases op with
  | add | adc | cmn => exact addFlags_eq_sumRule _ _ _
  | sub | rsb | sbc | rsc | cmp => exact subFlags_eq_sumRule _ _ _
  | and | eor | tst | teq | orr | mov | bic | mvn => rfl

/-! ## The template of R171 -/

/-- The template of an operation, by whether it writes Rd. -/
def AluOp.run (op : AluOp) (sf : Bool) (rn rd : Reg) (v : ShifterOut) (s : State) : Result :=
  if op.writes then aluWrite op sf rn rd v s else aluTest op rn v s

theorem AluOp.run_writes {op : AluOp} (sf : Bool) (rn : Reg) {rd : Reg} (v : ShifterOut) (writes : op.writes = true)
    (rd15 : rd ≠ 15) : op.run sf rn rd v s = .next (s.aluResult op sf rn rd v) := by
  rw [AluOp.run, if_pos writes, aluWrite, if_neg rd15, op.compute_eq_rule]
  cases sf with
  | false => rfl
  | true =>
    rw [if_pos rfl, State.advance, State.setFlags_nextPc]
    rfl

theorem AluOp.run_tests {op : AluOp} (sf : Bool) (rn rd : Reg) (v : ShifterOut) (tests : op.writes = false) :
    op.run sf rn rd v s =
      .next (s.flagged (flagsOf s.cpsr (op.rule (s.reg rn) v.value v.carry s.cpsr))) := by
  rw [AluOp.run, tests, if_neg Bool.false_ne_true, aluTest, op.compute_eq_rule, State.advance, State.setFlags_nextPc]
  rfl

/-! ## The operand forms (R170) -/

/-- The registers that an operation with a register shift names: MOV and MVN have no first operand, the tests no
destination. -/
def AluOp.regsNamed (op : AluOp) (rn rd rs rm : Reg) : List Reg :=
  (if op = .mov ∨ op = .mvn then [] else [rn]) ++ (if op.writes then [rd] else []) ++ [rs, rm]

theorem usesR15_cons_of_ne {x : Reg} {rs : List Reg} (x15 : x ≠ 15) : usesR15 (x :: rs) = usesR15 rs := by
  rw [usesR15_cons, decide_eq_false x15, Bool.false_or]

theorem usesR15_append (xs ys : List Reg) : usesR15 (xs ++ ys) = (usesR15 xs || usesR15 ys) :=
  List.contains_append

/-- The register shifts that R170 calls UNPREDICTABLE are those that name R15. -/
theorem AluOp.usesR15_regsNamed (op : AluOp) (rn rd rs rm : Reg) : usesR15 (op.regsNamed rn rd rs rm) = true ↔
    rs = 15 ∨ rm = 15 ∨ op.writes = true ∧ rd = 15 ∨ (op ≠ .mov ∧ op ≠ .mvn) ∧ rn = 15 := by
  simp only [AluOp.regsNamed, usesR15_append, apply_ite usesR15, usesR15_cons, usesR15_nil,
    Bool.or_eq_true, decide_eq_true_eq, Bool.false_eq_true, or_false, Bool.ite_eq_true_distrib, if_false_left,
    if_false_right]
  tauto

variable {c : Cond} (op : AluOp) (sf : Bool) (rn rd rs rm : Reg) (k : ShiftKind)

theorem exec_immForm (rot : BitVec 4) (imm : BitVec 8) :
    exec (op.immForm c sf rn rd rot imm) s = onCond c (fun s => op.run sf rn rd (immOperand rot imm s) s) s := by
  cases op <;> rfl

theorem exec_shiftForm (sh : BitVec 5) :
    exec (op.shiftForm c sf rn rd sh k rm) s = onCond c (fun s => op.run sf rn rd (immShiftOperand sh k rm s) s) s := by
  cases op <;> rfl

/-- A register shift is guarded by the registers it names. -/
theorem exec_regForm :
    exec (op.regForm c sf rn rd rs k rm) s =
      onCond c (fun s => refuseIf (usesR15 (op.regsNamed rn rd rs rm)) .r15Operand
        (op.run sf rn rd (regShiftOperand rs k rm s) s)) s := by
  cases op <;> rfl

theorem exec_regForm_pass (cond : Cond.holds c s.cpsr = true) (rs15 : rs ≠ 15) (rm15 : rm ≠ 15)
    (rd15 : op.writes = true → rd ≠ 15) (rn15 : rn ≠ 15) :
    exec (op.regForm c sf rn rd rs k rm) s = op.run sf rn rd (regShiftOperand rs k rm s) s := by
  have noPc : usesR15 (op.regsNamed rn rd rs rm) = false := by
    rw [Bool.eq_false_iff, ne_eq, op.usesR15_regsNamed]
    tauto
  rw [exec_regForm, onCond_pass _ cond, noPc, refuseIf_false]

theorem exec_regForm_pc (cond : Cond.holds c s.cpsr = true)
    (pc : rs = 15 ∨ rm = 15 ∨ op.writes = true ∧ rd = 15 ∨ (op ≠ .mov ∧ op ≠ .mvn) ∧ rn = 15) :
    exec (op.regForm c sf rn rd rs k rm) s = .refused .r15Operand := by
  rw [exec_regForm]
  exact onCond_refused cond ((op.usesR15_regsNamed rn rd rs rm).mpr pc)

/-- Settles O1: each form runs the template on its operand. -/
theorem dataProcessingResult : Obligations.DataProcessingResult := by
  unfold Obligations.DataProcessingResult
  intro op c sf rn rd rs rm rot imm sh k s writes cond rd15
  have result (v : ShifterOut) := op.run_writes (s := s) sf rn v writes rd15
  refine ⟨?_, ?_, fun rn15 rs15 rm15 => ?_⟩
  · rw [exec_immForm, onCond_pass _ cond, result]
  · rw [exec_shiftForm, onCond_pass _ cond, result]
  · rw [exec_regForm_pass op sf rn rd rs rm k cond rs15 rm15 (fun _ => rd15) rn15, result]

/-- Settles O2: each form runs the template for flags only on its operand. -/
theorem testsWriteFlagsOnly : Obligations.TestsWriteFlagsOnly := by
  unfold Obligations.TestsWriteFlagsOnly
  intro op c sf rn rd rs rm rot imm sh k s tests cond after
  have result (v : ShifterOut) : op.run sf rn rd v s = .next (after v) := op.run_tests sf rn rd v tests
  have noRd : op.writes = true → rd ≠ 15 := fun writes => absurd (tests.symm.trans writes) Bool.false_ne_true
  refine ⟨?_, ?_, fun rn15 rs15 rm15 => ?_⟩
  · rw [exec_immForm, onCond_pass _ cond, result]
  · rw [exec_shiftForm, onCond_pass _ cond, result]
  · rw [exec_regForm_pass op sf rn rd rs rm k cond rs15 rm15 noRd rn15, result]

end Sys2Proof.Machine
end

section
/-! SUPPORT. Proofs: the register operands that R170, R188, R199 and R204 call UNPREDICTABLE. -/

namespace Sys2Proof.Machine

/-- What an instruction of the multiply family does: under its condition it runs behind the guard for the registers it names
and for their clash (R188). -/
def RunsGuarded (f : State → Result) (c : Cond) (regs : List Reg) (clash : Bool) : Prop :=
  ∃ k : State → Result, ∀ s, f s = onCond c (fun s => mulGuard regs clash (k s)) s

section

variable {f : State → Result} {c : Cond} {regs : List Reg} {clash : Bool} {s : State}

theorem RunsGuarded.stop_pc (guarded : RunsGuarded f c regs clash) (cond : Cond.holds c s.cpsr = true)
    (pc : usesR15 regs = true) : f s = .refused .r15Operand := by
  obtain ⟨k, run⟩ := guarded
  rw [run, onCond_pass _ cond, mulGuard, pc, refuseIf_true]

theorem RunsGuarded.stop_clash (guarded : RunsGuarded f c regs clash) (cond : Cond.holds c s.cpsr = true)
    (noPc : usesR15 regs = false) (clashes : clash = true) : f s = .refused .registerClash := by
  obtain ⟨k, run⟩ := guarded
  rw [run, onCond_pass _ cond, mulGuard, noPc, refuseIf_false, clashes, refuseIf_true]

end

section

variable (c : Cond) (sf x y : Bool) (rd rn rs rm : Reg)

theorem mul_guarded : RunsGuarded (exec (.mul c sf rd 0 rs rm)) c [rd, rs, rm] (decide (rd = rm)) :=
  ⟨fun s => mulWrite sf rd (s.reg rm * s.reg rs + 0) s, fun _ => rfl⟩

theorem mla_guarded : RunsGuarded (exec (.mla c sf rd rn rs rm)) c [rd, rs, rm, rn] (decide (rd = rm)) :=
  ⟨_, fun _ => rfl⟩

/-- The meaning of the four long multiplies (R191 to R194). -/
theorem mul64_guarded (signed acc : Bool) : RunsGuarded (mul64 signed acc c sf rd rn rs rm) c [rd, rn, rs, rm]
    (decide (rd = rn ∨ rd = rm ∨ rn = rm)) :=
  ⟨_, fun _ => rfl⟩

theorem smlalxy_guarded : RunsGuarded (exec (.smlalxy c x y rd rn rs rm)) c [rd, rn, rs, rm] (decide (rd = rn)) :=
  ⟨_, fun _ => rfl⟩

theorem smulxy_guarded : RunsGuarded (exec (.smulxy c x y rd 0 rs rm)) c [rd, rs, rm] false :=
  ⟨_, fun _ => rfl⟩

theorem smulwy_guarded : RunsGuarded (exec (.smulwy c y rd 0 rs rm)) c [rd, rs, rm] false :=
  ⟨_, fun _ => rfl⟩

theorem smlaxy_guarded : RunsGuarded (exec (.smlaxy c x y rd rn rs rm)) c [rd, rn, rs, rm] false :=
  ⟨_, fun _ => rfl⟩

theorem smlawy_guarded : RunsGuarded (exec (.smlawy c y rd rn rs rm)) c [rd, rn, rs, rm] false :=
  ⟨_, fun _ => rfl⟩

/-- The meaning of the four saturating instructions (R200 to R203). -/
theorem saturating_guarded (double sub : Bool) : RunsGuarded (saturating double sub c rn rd 0 rm) c [rn, rd, rm] false :=
  ⟨_, fun _ => rfl⟩

theorem clz_guarded : RunsGuarded (exec (.clz c 15 rd 15 rm)) c [rd, rm] false :=
  ⟨_, fun _ => rfl⟩

end

/-- Settles O5: a register shift with R15 is refused by `exec_regForm_pc`, a multiply by its guard. -/
theorem registerRestrictionsStop : Obligations.RegisterRestrictionsStop := by
  unfold Obligations.RegisterRestrictionsStop
  intro op c sf x y rn rd rs rm k s cond
  refine ⟨exec_regForm_pc op sf rn rd rs rm k cond, fun pc => ?_, fun pc => ?_, fun pc => ?_, fun pc => ?_,
    fun rd15 rs15 rm15 rn15 => ?_⟩
  · have pc : usesR15 [rd, rs, rm] = true := by simpa [usesR15_cons, usesR15_nil] using pc
    exact ⟨(mul_guarded c sf rd rs rm).stop_pc cond pc, (smulxy_guarded c x y rd rs rm).stop_pc cond pc,
      (smulwy_guarded c y rd rs rm).stop_pc cond pc⟩
  · have pc : usesR15 [rd, rn, rs, rm] = true := by simpa [usesR15_cons, usesR15_nil] using pc
    have pcMla : usesR15 [rd, rs, rm, rn] = true := by
      rw [← pc]
      simp only [usesR15_cons, usesR15_nil, Bool.or_false]
      ac_rfl
    have long (signed acc : Bool) := (mul64_guarded c sf rd rn rs rm signed acc).stop_pc cond pc
    exact ⟨(mla_guarded c sf rd rn rs rm).stop_pc cond pcMla, long false false, long false true, long true false,
      long true true, (smlaxy_guarded c x y rd rn rs rm).stop_pc cond pc,
      (smlawy_guarded c y rd rn rs rm).stop_pc cond pc, (smlalxy_guarded c x y rd rn rs rm).stop_pc cond pc⟩
  · have pc : usesR15 [rn, rd, rm] = true := by simpa [usesR15_cons, usesR15_nil] using pc
    have stops (double sub : Bool) := (saturating_guarded c rd rn rm double sub).stop_pc cond pc
    exact ⟨stops false false, stops false true, stops true false, stops true true⟩
  · have pc : usesR15 [rd, rm] = true := by simpa [usesR15_cons, usesR15_nil] using pc
    exact (clz_guarded c rd rm).stop_pc cond pc
  · have noPc3 : usesR15 [rd, rs, rm] = false := (usesR15_cons_of_ne rd15).trans (usesR15_two rs15 rm15)
    have noPc4 : usesR15 [rd, rn, rs, rm] = false :=
      (usesR15_cons_of_ne rd15).trans ((usesR15_cons_of_ne rn15).trans (usesR15_two rs15 rm15))
    have noPcMla : usesR15 [rd, rs, rm, rn] = false :=
      (usesR15_cons_of_ne rd15).trans ((usesR15_cons_of_ne rs15).trans (usesR15_two rm15 rn15))
    refine ⟨fun same => ⟨(mul_guarded c sf rd rs rm).stop_clash cond noPc3 (decide_eq_true same),
      (mla_guarded c sf rd rn rs rm).stop_clash cond noPcMla (decide_eq_true same)⟩, fun same => ?_,
      fun same => (smlalxy_guarded c x y rd rn rs rm).stop_clash cond noPc4 (decide_eq_true same)⟩
    have long (signed acc : Bool) :=
      (mul64_guarded c sf rd rn rs rm signed acc).stop_clash cond noPc4 (decide_eq_true same)
    exact ⟨long false false, long false true, long true false, long true true⟩

end Sys2Proof.Machine
end

section
/-! SUPPORT. Proofs: the multiplies and CLZ (R188 to R199, R204). -/

namespace Sys2Proof.Machine

variable {s : State}

/-! ## The guard and the writes (R188) -/

/-- An instruction of the family under its condition, with no R15 and no clash among its registers. -/
theorem onCond_mulGuard_pass {c : Cond} {regs : List Reg} {clash : Bool} (k : State → Result)
    (cond : Cond.holds c s.cpsr = true) (noPc : ∀ r ∈ regs, r ≠ 15) (noClash : clash = false) :
    onCond c (fun s => mulGuard regs clash (k s)) s = k s := by
  rw [onCond_pass _ cond, noClash, mulGuard_pass _ noPc]

theorem mulWrite_eq (sf : Bool) (rd : Reg) (r : Word) (s : State) :
    mulWrite sf rd r s = .next (s.wroteFlags rd r (nzIf sf s.cpsr r)) := by
  cases sf with
  | false => rfl
  | true =>
    rw [mulWrite, if_pos rfl, State.advance, State.setNz_nextPc]
    rfl

theorem extract_highWord (p : BitVec 64) : p.extractLsb' 32 32 = BitVec.ofNat 32 (p.toNat / 4294967296) := by
  rw [BitVec.extractLsb', Nat.shiftRight_eq_div_pow]

theorem mulWriteLong_eq (sf : Bool) (rdHi rdLo : Reg) (p : BitVec 64) (s : State) :
    mulWriteLong sf rdHi rdLo p s = .next (s.wroteLong sf rdHi rdLo p) := by
  rw [mulWriteLong, extract_highWord]
  cases sf with
  | false => rfl
  | true =>
    rw [if_pos rfl, State.advance, State.setNz64_nextPc]
    rfl

/-! ## The 32-bit multiplies (R189, R190) -/

theorem mul_add_eq_ofNat (a b d : Word) : a * b + d = BitVec.ofNat 32 (a.toNat * b.toNat + d.toNat) := by
  simp only [BitVec.ofNat_add, BitVec.ofNat_mul, BitVec.ofNat_toNat, BitVec.setWidth_eq]

/-- What MUL and MLA share: `acc` is what they add to the product. -/
theorem mul32_pass {c : Cond} (sf : Bool) {rd rs rm : Reg} (acc : State → Word) {used : List Reg}
    (cond : Cond.holds c s.cpsr = true) (noPc : ∀ r ∈ rd :: rs :: rm :: used, r ≠ 15) (noClash : rd ≠ rm) :
    let r := BitVec.ofNat 32 ((s.reg rm).toNat * (s.reg rs).toNat + (acc s).toNat)
    mul32 c sf rd acc used rs rm s = .next (s.wroteFlags rd r (nzIf sf s.cpsr r)) := by
  intro r
  rw [mul32, onCond_mulGuard_pass _ cond noPc (decide_eq_false noClash), mulWrite_eq, mul_add_eq_ofNat]

theorem exec_mul {c : Cond} (sf : Bool) (rd rs rm : Reg) (cond : Cond.holds c s.cpsr = true) :
    exec (.mul c sf rd 0 rs rm) s = mul32 .al sf rd (fun _ => 0) [] rs rm s :=
  onCond_pass (fun s => mul32 .al sf rd (fun _ => 0) [] rs rm s) cond

/-- Settles O6: MUL adds nothing to the product, MLA its accumulator. -/
theorem multiplyResult : Obligations.MultiplyResult := by
  unfold Obligations.MultiplyResult
  intro c sf rd rn rs rm s cond rd15 rs15 rm15 noClash p q
  refine ⟨?_, fun rn15 => ?_⟩
  · rw [exec_mul sf rd rs rm cond]
    exact mul32_pass sf _ rfl (by simpa using ⟨rd15, rs15, rm15⟩) noClash
  · exact mul32_pass sf (fun s => s.reg rn) cond (by simpa using ⟨rd15, rs15, rm15, rn15⟩) noClash

/-! ## Exact products -/

theorem setWidth_mul_setWidth (a b : Word) :
    a.setWidth 64 * b.setWidth 64 = BitVec.ofNat 64 (a.toNat * b.toNat) := by
  rw [BitVec.ofNat_mul, BitVec.ofNat_toNat, BitVec.ofNat_toNat]

theorem signExtend_mul_signExtend {m n : Nat} (w : Nat) (a : BitVec m) (b : BitVec n) :
    a.signExtend w * b.signExtend w = BitVec.ofInt w (a.toInt * b.toInt) :=
  (BitVec.ofInt_mul _ _).symm

/-- A register pair as one number, the high word first. -/
theorem append_eq_ofNat (hi lo : Word) : hi ++ lo = BitVec.ofNat 64 (hi.toNat * 4294967296 + lo.toNat) := by
  apply BitVec.eq_of_toNat_eq
  have hhi := hi.isLt
  have hlo := lo.isLt
  rw [BitVec.toNat_append, ← Nat.shiftLeft_add_eq_or_of_lt hlo, Nat.shiftLeft_eq, BitVec.toNat_ofNat]
  omega

theorem setWidth_mul_add_append (a b hi lo : Word) : a.setWidth 64 * b.setWidth 64 + (hi ++ lo) =
    BitVec.ofNat 64 (a.toNat * b.toNat + (hi.toNat * 4294967296 + lo.toNat)) := by
  rw [setWidth_mul_setWidth, append_eq_ofNat, ← BitVec.ofNat_add]

theorem signExtend_mul_add_append {m n : Nat} (a : BitVec m) (b : BitVec n) (hi lo : Word) :
    a.signExtend 64 * b.signExtend 64 + (hi ++ lo) =
      BitVec.ofInt 64 (a.toInt * b.toInt + (hi.toNat * 4294967296 + lo.toNat : Nat)) := by
  rw [signExtend_mul_signExtend, append_eq_ofNat, BitVec.ofInt_add, BitVec.ofInt_natCast]

/-- The halves of R195, read as signed integers. -/
theorem halfOf_toInt (top : Bool) (v : Word) : (halfOf top v).toInt = halfInt top v := by
  cases top with
  | false => rfl
  | true =>
    rw [halfOf, halfInt, if_pos rfl, if_pos rfl, BitVec.extractLsb', Nat.shiftRight_eq_div_pow]

/-! ## The long multiplies (R191 to R194, R199) -/

/-- The four long multiplies write the product of the extended operands, with the pair added if they accumulate. -/
theorem mul64_pass (signed acc : Bool) {c : Cond} (sf : Bool) {rdHi rdLo rs rm : Reg} {p : BitVec 64}
    (cond : Cond.holds c s.cpsr = true) (noPc : ∀ r ∈ [rdHi, rdLo, rs, rm], r ≠ 15)
    (noClash : ¬(rdHi = rdLo ∨ rdHi = rm ∨ rdLo = rm))
    (value :
      let ext (v : Word) : BitVec 64 := if signed then v.signExtend 64 else v.setWidth 64
      let base : BitVec 64 := if acc then s.reg rdHi ++ s.reg rdLo else 0
      ext (s.reg rm) * ext (s.reg rs) + base = p) :
    mul64 signed acc c sf rdHi rdLo rs rm s = .next (s.wroteLong sf rdHi rdLo p) := by
  rw [mul64, onCond_mulGuard_pass _ cond noPc (decide_eq_false noClash), mulWriteLong_eq, value]

theorem exec_smlalxy {c : Cond} (x y : Bool) {rdHi rdLo rs rm : Reg} (cond : Cond.holds c s.cpsr = true)
    (noPc : ∀ r ∈ [rdHi, rdLo, rs, rm], r ≠ 15) (noClash : rdHi ≠ rdLo) :
    exec (.smlalxy c x y rdHi rdLo rs rm) s = mulWriteLong false rdHi rdLo
      ((halfOf x (s.reg rm)).signExtend 64 * (halfOf y (s.reg rs)).signExtend 64 + (s.reg rdHi ++ s.reg rdLo)) s :=
  onCond_mulGuard_pass (fun s => mulWriteLong false rdHi rdLo
    ((halfOf x (s.reg rm)).signExtend 64 * (halfOf y (s.reg rs)).signExtend 64 + (s.reg rdHi ++ s.reg rdLo)) s)
    cond noPc (decide_eq_false noClash)

/-- Settles O7: each value written is the exact product, and the pair where it accumulates, as a doubleword. -/
theorem longMultiplyResult : Obligations.LongMultiplyResult := by
  unfold Obligations.LongMultiplyResult
  intro c sf x y rdHi rdLo rs rm s cond hi15 lo15 rs15 rm15 hiLo a b acc
  have noPc : ∀ r ∈ [rdHi, rdLo, rs, rm], r ≠ 15 := by simpa using ⟨hi15, lo15, rs15, rm15⟩
  refine ⟨fun hiRm loRm => ?_, ?_⟩
  · have noClash : ¬(rdHi = rdLo ∨ rdHi = rm ∨ rdLo = rm) := by simp [hiLo, hiRm, loRm]
    exact ⟨mul64_pass false false sf cond noPc noClash ((BitVec.add_zero _).trans (setWidth_mul_setWidth a b)),
      mul64_pass false true sf cond noPc noClash (setWidth_mul_add_append ..),
      mul64_pass true false sf cond noPc noClash ((BitVec.add_zero _).trans (signExtend_mul_signExtend 64 a b)),
      mul64_pass true true sf cond noPc noClash (signExtend_mul_add_append ..)⟩
  · rw [exec_smlalxy x y cond noPc hiLo, mulWriteLong_eq, signExtend_mul_add_append, halfOf_toInt, halfOf_toInt]

/-! ## The 16-bit and 32 by 16 multiplies (R195 to R198) -/

/-- An integer fits 32 bits exactly where a word holds it (R15). -/
theorem exceeds32_eq (x : Int) : exceeds32 x = decide ((BitVec.ofInt 32 x).toInt ≠ x) := by
  rw [exceeds32, decide_eq_decide]
  refine ⟨fun beyond fits => ?_, fun differs => ?_⟩
  · have low := (BitVec.ofInt 32 x).le_toInt
    have high := (BitVec.ofInt 32 x).toInt_lt
    omega
  · by_contra within
    exact differs (BitVec.toInt_ofInt_eq_self (by decide) (by omega) (by omega))

/-- What an accumulation leaves: the exact sum as a word, and Q where that does not fit (R196, R198). -/
theorem accumulateQ_eq (rd : Reg) (p acc : Word) (s : State) :
    let sum := p.toInt + acc.toInt
    accumulateQ rd p acc s =
      .next (s.wroteFlags rd (BitVec.ofInt 32 sum) (Psr.orQ s.cpsr (exceeds32 sum))) := by
  intro sum
  have result : (addFlags p acc false).result = BitVec.ofInt 32 sum := by
    rw [BitVec.ofInt_add, BitVec.ofInt_toInt, BitVec.ofInt_toInt]
    exact BitVec.add_zero _
  have overflow : (addFlags p acc false).v = exceeds32 sum := by
    rw [exceeds32_eq, ← result, ← add_zero sum]
    rfl
  rw [accumulateQ, State.advance, State.orQ_nextPc, result, overflow]
  rfl

/-- The product of two halves fits 32 bits. -/
theorem halfProduct_toInt (x y : Bool) (a b : Word) : (halfProduct x y a b).toInt = halfInt x a * halfInt y b := by
  have low : -2 ^ 30 ≤ (halfOf x a).toInt * (halfOf y b).toInt := BitVec.le_toInt_mul_toInt
  have high : (halfOf x a).toInt * (halfOf y b).toInt ≤ 2 ^ 30 := BitVec.toInt_mul_toInt_le
  rw [← halfOf_toInt, ← halfOf_toInt, halfProduct, signExtend_mul_signExtend]
  exact BitVec.toInt_ofInt_eq_self (by decide) (by omega) (by omega)

/-- The product of a word and a half fits 48 bits. -/
theorem product48_toInt (a : Word) (h : BitVec 16) :
    (a.signExtend 48 * h.signExtend 48).toInt = a.toInt * h.toInt := by
  have wordSize : |a.toInt| ≤ 2 ^ 31 := abs_le.mpr ⟨a.le_toInt, a.toInt_lt.le⟩
  have halfSize : |h.toInt| ≤ 2 ^ 15 := abs_le.mpr ⟨h.le_toInt, h.toInt_lt.le⟩
  have size : |a.toInt * h.toInt| ≤ 2 ^ 31 * 2 ^ 15 := by
    rw [abs_mul]
    exact mul_le_mul wordSize halfSize (abs_nonneg _) (by decide)
  obtain ⟨low, high⟩ := abs_le.mp size
  rw [signExtend_mul_signExtend]
  exact BitVec.toInt_ofInt_eq_self (by decide) (by omega) (by omega)

/-- Bits [47:16] of a 48-bit value are its quotient by 2^16, rounded down. -/
theorem extract_top32_toInt (p : BitVec 48) : (p.extractLsb' 16 32).toInt = p.toInt / 65536 := by
  have bound := p.isLt
  rw [toInt_of_sign, BitVec.extractLsb'_toNat, Nat.shiftRight_eq_div_pow, BitVec.toInt_eq_toNat_cond]
  split <;> split <;> omega

theorem wideProduct_toInt (y : Bool) (a b : Word) : (wideProduct y a b).toInt = a.toInt * halfInt y b / 65536 := by
  rw [wideProduct, extract_top32_toInt, product48_toInt, halfOf_toInt]

section

variable {c : Cond} (x y : Bool) {rd rn rs rm : Reg}

theorem exec_smulxy (cond : Cond.holds c s.cpsr = true) (noPc : ∀ r ∈ [rd, rs, rm], r ≠ 15) :
    exec (.smulxy c x y rd 0 rs rm) s = .next (s.wrote rd (halfProduct x y (s.reg rm) (s.reg rs))) :=
  onCond_mulGuard_pass (fun s => mulWrite false rd (halfProduct x y (s.reg rm) (s.reg rs)) s) cond noPc rfl

theorem exec_smulwy (cond : Cond.holds c s.cpsr = true) (noPc : ∀ r ∈ [rd, rs, rm], r ≠ 15) :
    exec (.smulwy c y rd 0 rs rm) s = .next (s.wrote rd (wideProduct y (s.reg rm) (s.reg rs))) :=
  onCond_mulGuard_pass (fun s => mulWrite false rd (wideProduct y (s.reg rm) (s.reg rs)) s) cond noPc rfl

theorem exec_smlaxy (cond : Cond.holds c s.cpsr = true) (noPc : ∀ r ∈ [rd, rn, rs, rm], r ≠ 15) :
    exec (.smlaxy c x y rd rn rs rm) s =
      accumulateQ rd (halfProduct x y (s.reg rm) (s.reg rs)) (s.reg rn) s :=
  onCond_mulGuard_pass (fun s => accumulateQ rd (halfProduct x y (s.reg rm) (s.reg rs)) (s.reg rn) s) cond noPc rfl

theorem exec_smlawy (cond : Cond.holds c s.cpsr = true) (noPc : ∀ r ∈ [rd, rn, rs, rm], r ≠ 15) :
    exec (.smlawy c y rd rn rs rm) s = accumulateQ rd (wideProduct y (s.reg rm) (s.reg rs)) (s.reg rn) s :=
  onCond_mulGuard_pass (fun s => accumulateQ rd (wideProduct y (s.reg rm) (s.reg rs)) (s.reg rn) s) cond noPc rfl

end

/-- Settles O8: the products are exact, so an accumulated sum overflows where the exact sum does. -/
theorem halfwordMultiplyResult : Obligations.HalfwordMultiplyResult := by
  unfold Obligations.HalfwordMultiplyResult
  intro c x y rd rn rs rm s cond rd15 rs15 rm15 p w sum
  have noPc : ∀ r ∈ [rd, rs, rm], r ≠ 15 := by simpa using ⟨rd15, rs15, rm15⟩
  have half : (halfProduct x y (s.reg rm) (s.reg rs)).toInt = p := halfProduct_toInt ..
  have wide : (wideProduct y (s.reg rm) (s.reg rs)).toInt = w := wideProduct_toInt ..
  refine ⟨?_, ?_, fun rn15 => ?_⟩
  · rw [exec_smulxy x y cond noPc, ← half, BitVec.ofInt_toInt]
  · rw [exec_smulwy y cond noPc, ← wide, BitVec.ofInt_toInt]
  · have noPc4 : ∀ r ∈ [rd, rn, rs, rm], r ≠ 15 := by simpa using ⟨rd15, rn15, rs15, rm15⟩
    exact ⟨by rw [exec_smlaxy x y cond noPc4, accumulateQ_eq, half],
      by rw [exec_smlawy y cond noPc4, accumulateQ_eq, wide]⟩

/-! ## CLZ (R204) -/

theorem leadingZeros_zero (n : Nat) : leadingZeros 0 n = n := by
  induction n with
  | zero => rfl
  | succ n ih =>
    have bit : (0 : Word).getLsbD n = false := BitVec.getLsbD_zero
    rw [leadingZeros, bit, if_neg Bool.false_ne_true, ih, Nat.add_comm]

/-- Above the highest one bit there are only zeros to count. -/
theorem leadingZeros_of_highest {v : Word} {k n : Nat} (one : v.getLsbD k = true)
    (zeros : ∀ j, k < j → v.getLsbD j = false) (inside : k < n) : leadingZeros v n = n - 1 - k := by
  induction n with
  | zero => omega
  | succ n ih =>
    obtain rfl | above : k = n ∨ k < n := by omega
    · simp [leadingZeros, one]
    · rw [leadingZeros, zeros n above, ih above, if_neg Bool.false_ne_true]
      omega

/-- The highest one bit of a word is bit log2. -/
theorem leadingZeros_of_ne_zero {v : Word} (nonzero : v ≠ 0) : leadingZeros v 32 = 31 - v.toNat.log2 := by
  have positive : v.toNat ≠ 0 := fun zero => nonzero (BitVec.eq_of_toNat_eq zero)
  refine leadingZeros_of_highest (Nat.testBit_log2 positive) (fun j above => ?_) ((Nat.log2_lt positive).mpr v.isLt)
  exact Nat.testBit_lt_two_pow (Nat.lt_log2_self.trans_le (Nat.pow_le_pow_right (by decide) above))

theorem exec_clz {c : Cond} {rd rm : Reg} (cond : Cond.holds c s.cpsr = true) (noPc : ∀ r ∈ [rd, rm], r ≠ 15) :
    exec (.clz c 15 rd 15 rm) s = .next (s.wrote rd (BitVec.ofNat 32 (leadingZeros (s.reg rm) 32))) :=
  onCond_mulGuard_pass (fun s => mulWrite false rd (BitVec.ofNat 32 (leadingZeros (s.reg rm) 32)) s) cond noPc rfl

/-- Settles O10, for zero and for a word with a highest one bit. -/
theorem countLeadingZerosResult : Obligations.CountLeadingZerosResult := by
  unfold Obligations.CountLeadingZerosResult
  intro c rd rm s cond rd15 rm15
  rw [exec_clz cond (by simpa using ⟨rd15, rm15⟩)]
  split
  case isTrue zero =>
    rw [zero, leadingZeros_zero]
    rfl
  case isFalse nonzero => rw [leadingZeros_of_ne_zero nonzero]

end Sys2Proof.Machine
end

section
/-! SUPPORT. Proofs: a load of R15 (R219, R220). -/

namespace Sys2Proof.Machine

variable {s t u : State}

/-! ## Interworking jumps, by the low bits of the target (R210) -/

theorem getLsbD_zero_eq (v : Word) : v.getLsbD 0 = decide (v.toNat % 2 = 1) := by
  rw [BitVec.getLsbD, Nat.testBit_zero]

theorem getLsbD_one_eq (v : Word) : v.getLsbD 1 = decide (v.toNat / 2 % 2 = 1) := by
  rw [BitVec.getLsbD, Nat.testBit_succ, Nat.testBit_zero]

theorem clearBit0_of_odd {v : Word} (odd : v.toNat % 2 = 1) : v &&& ~~~1 = v - 1 := by
  have cleared : (v &&& ~~~1).toNat = v.toNat / 2 * 2 := toNat_alignHalf v
  bv_omega

theorem jumpExchange_odd {v : Word} (odd : v.toNat % 2 = 1) :
    jumpExchange v s = .next ((s.setCpsr (Psr.setT s.cpsr true)).jump (v - 1)) := by
  rw [jumpExchange, getLsbD_zero_eq, decide_eq_true odd, if_pos rfl, clearBit0_of_odd odd]

theorem jumpExchange_even {v : Word} (even : v.toNat % 2 = 0) :
    jumpExchange v s = if v.toNat % 4 = 0 then .next ((s.setCpsr (Psr.setT s.cpsr false)).jump v)
      else .refused .branchTarget := by
  have bit0 : v.getLsbD 0 = false := by rw [getLsbD_zero_eq, even]; rfl
  have bit1 : v.getLsbD 1 = decide (v.toNat % 4 ≠ 0) := by rw [getLsbD_one_eq, decide_eq_decide]; omega
  rw [jumpExchange, bit0, bit1, if_neg Bool.false_ne_true]
  by_cases aligned : v.toNat % 4 = 0 <;> simp [aligned]

/-! ## A loaded pc (R219) -/

/-- The pc has been loaded: the general registers, the CPSR and the pc are as given, the fetch stream starts anew, and nothing
else has changed. -/
def PcLoaded (s : State) (regs : Vector Word 30) (p target : Word) (t : State) : Prop :=
  t.regs = regs ∧ t.cpsr = p ∧ t.pc = target ∧ t.fetch = { s.fetch with nonseq := true } ∧ SameSystem s t ∧ SameMemory s t

/-- The answer of an instruction that loads the pc with `v`: the low bits of `v` select the state with LT = 0 and are masked
with LT = 1. -/
structure LoadsPc (s : State) (regs : Vector Word 30) (v : Word) (r : Result) : Prop where
  thumb : s.cp15.lt = false → v.toNat % 2 = 1 → ∃ t, r = .next t ∧ PcLoaded s regs (Psr.setT s.cpsr true) (v - 1) t
  arm : s.cp15.lt = false → v.toNat % 4 = 0 → ∃ t, r = .next t ∧ PcLoaded s regs (Psr.setT s.cpsr false) v t
  refused : s.cp15.lt = false → v.toNat % 4 = 2 → r = .refused .branchTarget
  kept : s.cp15.lt = true →
    ∃ t, r = .next t ∧ PcLoaded s regs s.cpsr (if s.thumb then v &&& 0xFFFFFFFE else v &&& 0xFFFFFFFC) t

/-- A jump, with or without a new CPSR, from the midst of an instruction. -/
theorem Framed.jump_setCpsr (h : Framed s u) (memory : SameMemory s u) (p target : Word) :
    PcLoaded s u.regs p target ((u.setCpsr p).jump target) := by
  have system : SameSystem u ((u.setCpsr p).jump target) := by constructor <;> rfl
  have bytes : SameMemory u ((u.setCpsr p).jump target) := fun q => by cases q <;> rfl
  refine ⟨rfl, rfl, rfl, ?_, h.system.trans system, memory.trans bytes⟩
  rw [State.jump_fetch, State.setCpsr_fetch, h.fetch]

theorem loadPc_loadsPc (h : Framed s u) (memory : SameMemory s u) (v : Word) : LoadsPc s u.regs v (loadPc v u) := by
  have exchange (lt : s.cp15.lt = false) : loadPc v u = jumpExchange v u := by rw [loadPc, h.system.cp15, lt]; rfl
  constructor
  case thumb =>
    intro lt odd
    rw [exchange lt, jumpExchange_odd odd, h.cpsr]
    exact ⟨_, rfl, h.jump_setCpsr memory ..⟩
  case arm =>
    intro lt aligned
    rw [exchange lt, jumpExchange_even (by omega), if_pos aligned, h.cpsr]
    exact ⟨_, rfl, h.jump_setCpsr memory ..⟩
  case refused =>
    intro lt half
    rw [exchange lt, jumpExchange_even (by omega), if_neg (by omega)]
  case kept =>
    intro lt
    have state : u.thumb = s.thumb := by unfold State.thumb; rw [h.cpsr]
    rw [loadPc, h.system.cp15, lt, ← state, ← h.cpsr]
    exact ⟨_, rfl, h.jump_setCpsr memory ..⟩

/-! ## LDR (R220) -/

theorem rotateLoaded_aligned {a : Word} (aligned : a.toNat % 4 = 0) (v : Word) : rotateLoaded a v = v := by
  rw [rotateLoaded_eq, aligned]
  simp [BitVec.rotateRight, BitVec.rotateRightAux]

theorem loadWord_pc {user : Bool} {rn : Reg} {m : Addressed} (h : s.readable user .word m.address)
    (aligned : m.address.toNat % 4 = 0) :
    LoadsPc s (s.withBase rn m.newBase) (s.loaded .word m.address) (loadWord user rn 15 m s) := by
  obtain ⟨u, read, only⟩ := memRead_readable h
  have run : loadWord user rn 15 m s = loadPc (s.loaded .word m.address) (u.setReg? rn m.newBase) := by
    rw [loadWord, (misaligned_word_iff _).mpr aligned, Bool.and_false, refuseIf_false, read]
    simp only [Access.finish, if_true, rotateLoaded_aligned aligned]
  rw [run, ← only.framed.setReg?_regs only.regs]
  exact loadPc_loadsPc (only.framed.trans (.setReg? u rn m.newBase)) (only.memory.setReg? rn m.newBase) _

theorem loadWord_pc_unaligned {user : Bool} {rn : Reg} {m : Addressed} (unaligned : m.address.toNat % 4 ≠ 0)
    (unchecked : s.cp15.a = false) : loadWord user rn 15 m s = .refused .branchTarget := by
  have skewed : misaligned .word m.address = true := by
    rw [← Bool.not_eq_false, misaligned_word_iff]
    exact unaligned
  rw [loadWord, unchecked, skewed]
  rfl

/-- Of the loads of one register, those of a word in ARM state alone can name R15 (R222, R224, R278). -/
theorem LoadRun.pc {x : LoadForm} {arm : Bool} {r : Result} (run : LoadRun s x arm r) (dest : x.rd = 15) :
    x.size = .word ∧ r = loadWord x.force x.rn 15 x.at_ s := by
  cases run with
  | word size => exact ⟨size, by rw [dest]⟩
  | narrow ext size other value => exact absurd dest other
  | thumb ext rd low base user value => exact absurd (low.symm.trans dest) (loReg_ne_pc rd)

/-- Settles O22: the load is a MemRead of an aligned word, then LoadPC. -/
theorem loadPcResult : Obligations.LoadPcResult := by
  unfold Obligations.LoadPcResult
  intro i x s form cond dest
  obtain ⟨size, run⟩ := (exec_loadRun form cond).pc dest
  rw [run, size]
  refine ⟨fun readable aligned => ?_, loadWord_pc_unaligned⟩
  obtain ⟨thumb, arm, refused, kept⟩ := loadWord_pc (rn := x.rn) readable aligned
  exact ⟨thumb, arm, refused, kept⟩

end Sys2Proof.Machine
end

section
/-! SUPPORT. Proofs: load multiple, without and with R15 in the list (R219, R234 to R238, R297, R298). -/

namespace Sys2Proof.Machine

variable {s t u : State}

/-! ## The registers of the list -/

/-- The general registers with each register of the list loaded, before the base is written back. -/
def State.listLoaded (s : State) (x : MultipleForm) : Vector Word 30 :=
  (x.regs.zip x.addresses).foldl
    (fun v y => if y.1 = 15 then v else v.set (physIndex x.bank y.1) (s.loaded .word y.2)) s.regs

/-- The state with other general registers. -/
def State.withRegs (s : State) (v : Vector Word 30) : State := { s with regs := v }

theorem Framed.withRegs (h : Framed s t) (v : Vector Word 30) : Framed (s.withRegs v) t :=
  have back : Framed (s.withRegs v) s := ⟨by constructor <;> rfl, rfl, rfl, rfl⟩
  back.trans h

/-- A base is written back as after a load of one register, once the list is loaded. -/
theorem loadedList_eq (s : State) (x : MultipleForm) :
    s.loadedList x = (s.withRegs (s.listLoaded x)).withBase x.rn x.newBase := by
  unfold State.loadedList State.withBase
  cases x.newBase <;> rfl

theorem setRegs_framed (m : Mode) (l : List (Reg × Word)) (s : State) :
    Framed s (setRegs m l s) ∧ SameMemory s (setRegs m l s) := by
  induction l generalizing s with
  | nil => exact ⟨.refl s, fun _ => rfl⟩
  | cons y rest ih =>
    unfold setRegs
    split
    · exact ih s
    · obtain ⟨framed, memory⟩ := ih (s.setBankReg m y.1 y.2)
      exact ⟨(Framed.setBankReg s m y.1 y.2).trans framed, memory⟩

theorem setRegs_regs (m : Mode) (l : List (Reg × Word)) (s : State) :
    (setRegs m l s).regs = l.foldl (fun v y => if y.1 = 15 then v else v.set (physIndex m y.1) y.2) s.regs := by
  induction l generalizing s with
  | nil => rfl
  | cons y rest ih =>
    rw [setRegs, ih, List.foldl_cons]
    split <;> rfl

theorem setRegs_listLoaded (only : ReadOnly s u) (x : MultipleForm) :
    (setRegs x.bank (x.regs.zip (x.addresses.map (s.loaded .word))) u).regs = s.listLoaded x := by
  rw [setRegs_regs, only.regs, List.zip_map_right, List.foldl_map]
  rfl

/-! ## The end of the instruction -/

/-- What a load multiple does after its words: the base, then the pc if it is listed. -/
def MultipleForm.loadEnds (x : MultipleForm) (last : Word) (t : State) : Result :=
  if x.regs.contains 15 then loadPc last (t.setReg? x.rn x.newBase) else .next (x.ends t).advance

/-- A load of a list that the base, if it is written back, is not in (R237). -/
theorem ldmList_ends {c : Cond} {p up w : Bool} {rn : Reg} {regs : List Reg} {x : MultipleForm}
    (h : s.mode4 c s.mode p up w rn regs false = some x) (apart : w = true → rn ∉ regs) :
    ldmList p up w rn regs s = loadMultiple x.bank x.rn x.start x.regs s x.loadEnds := by
  obtain ⟨nonempty, rn15, rfl⟩ := mode4_some h
  have guard : (w && regs.contains rn) = false := by
    cases w with
    | false => rfl
    | true => simpa using apart rfl
  rw [ldmList, multipleGuard_legal nonempty rn15, guard, refuseIf_false]
  cases w <;> rfl

theorem exec_ldmUser {c : Cond} {p up w : Bool} {rn : Reg} {list : BitVec 15} (cond : Cond.holds c s.cpsr = true) :
    exec (.ldmUser c p up w rn list) s = multipleGuard (listRegs list).isEmpty rn (userBankGuard w s
      (loadMultiple .usr rn (multipleStart p up (s.reg rn) (listRegs list).length) (listRegs list) s
        fun _ t => .next t.afterUserTransfer.advance)) :=
  (execLdmUser.eq_def c p up w rn list s).trans (onCond_pass _ cond)

/-- A load into the User bank: its list has no place for R15 (R238). -/
theorem ldmUser_ends {c : Cond} {p up w : Bool} {rn : Reg} {list : BitVec 15} {x : MultipleForm}
    (h : s.mode4 c .usr p up false rn (listRegs list) true = some x) (cond : Cond.holds c s.cpsr = true)
    (legal : ¬(w = true ∨ s.mode = .usr ∨ s.mode = .sys)) :
    exec (.ldmUser c p up w rn list) s = loadMultiple x.bank x.rn x.start x.regs s x.loadEnds := by
  obtain ⟨nonempty, rn15, rfl⟩ := mode4_some h
  rw [not_or] at legal
  have guard : (w || s.spsr?.isNone) = false := by rw [eq_false_of_ne_true legal.1, spsr?_isNone legal.2]; rfl
  have noPc : (listRegs list).contains 15 = false := by
    rw [← Bool.not_eq_true, List.contains_iff_mem]
    exact fun member => absurd (listRegs_low (by decide) member) (by decide)
  have ends : (s.listForm c .usr p up false rn (listRegs list) true).loadEnds =
      fun _ t => .next t.afterUserTransfer.advance := by
    funext last t
    simp only [MultipleForm.loadEnds, State.listForm, noPc, Bool.false_eq_true, if_false]
    rfl
  rw [exec_ldmUser cond, multipleGuard_legal nonempty rn15, userBankGuard, guard, refuseIf_false, ends]
  rfl

/-- Every load multiple reads the words of its form, then ends. -/
theorem exec_loadMultiple_ends {i : Instr} {x : MultipleForm} (form : s.multipleLoad i = some x)
    (cond : Cond.holds x.cond s.cpsr = true) :
    exec i s = loadMultiple x.bank x.rn x.start x.regs s x.loadEnds := by
  unfold State.multipleLoad at form
  split at form
  next c p up w rn list =>
    split at form
    · cases form
    next apart =>
      obtain ⟨-, -, rfl⟩ := mode4_some form
      exact (onCond_pass (ldmList p up w rn (listRegs list)) cond).trans
        (ldmList_ends form fun hw member => apart ⟨hw, member⟩)
  next c p up w rn list =>
    split at form
    · cases form
    next legal =>
      obtain ⟨-, -, rfl⟩ := mode4_some form
      exact ldmUser_ends form cond legal
  next r list =>
    refine ldmList_ends form fun _ member => ?_
    rcases List.mem_append.mp member with low | high
    · exact absurd (listRegs_low (by decide) low) (by decide)
    · cases r
      · cases high
      · exact absurd (List.mem_singleton.mp high) (by decide)
  next rn list =>
    have flag : decide (rn.reg ∉ listRegs list) = !(listRegs list).contains rn.reg := by simp
    rw [flag] at form
    exact ldmList_ends form fun apart => by simpa using apart
  · cases form

/-- The words of a load multiple, all of which are read. -/
theorem loadMultiple_readable {x : MultipleForm} {v : Word} {k : Word → State → Result} (quiet : s.between = [])
    (readable : ∀ a ∈ x.addresses, s.readable false .word a)
    (last : x.addresses.getLast?.map (s.loaded .word) = some v) :
    ∃ t, loadMultiple x.bank x.rn x.start x.regs s k = k v t ∧ Framed s t ∧ SameMemory s t ∧
      t.regs = s.listLoaded x := by
  obtain ⟨u, read, only⟩ := readWords_readable quiet readable
  obtain ⟨framed, memory⟩ := setRegs_framed x.bank (x.regs.zip (x.addresses.map (s.loaded .word))) u
  refine ⟨_, ?_, only.framed.trans framed, only.memory.trans memory, setRegs_listLoaded only x⟩
  rw [loadMultiple, ← MultipleForm.addresses, read]
  simp only [List.getLast?_map, last, Option.getD_some]

/-- The end of a load multiple with R15 in its list. -/
theorem loadEnds_pc {x : MultipleForm} (h : Framed s t) (memory : SameMemory s t) (regs : t.regs = s.listLoaded x)
    (listed : 15 ∈ x.regs) (v : Word) : LoadsPc s (s.loadedList x) v (x.loadEnds v t) := by
  have based : (t.setReg? x.rn x.newBase).regs = s.loadedList x := by
    rw [loadedList_eq, ← regs]
    exact (h.withRegs t.regs).setReg?_regs rfl x.rn x.newBase
  rw [MultipleForm.loadEnds, if_pos (List.contains_iff_mem.mpr listed), ← based]
  exact loadPc_loadsPc (h.trans (.setReg? t x.rn x.newBase)) (memory.setReg? x.rn x.newBase) v

/-- The end of a load multiple without R15 in its list. -/
theorem loadEnds_done {x : MultipleForm} (h : Framed s t) (memory : SameMemory s t) (regs : t.regs = s.listLoaded x)
    (unlisted : 15 ∉ x.regs) (v : Word) :
    ∃ t', x.loadEnds v t = .next t' ∧ t'.regs = s.loadedList x ∧ t'.cpsr = s.cpsr ∧ WentOn s t' ∧
      t'.userXfer = (s.userXfer || x.user) ∧ SameSystem s { t' with userXfer := s.userXfer } ∧ SameMemory s t' := by
  obtain ⟨regs', cpsr, went, xfer, system⟩ :=
    MultipleForm.ends_framed (x := x) (h.withRegs t.regs) rfl
  have same : SameSystem s (s.withRegs t.regs) := by constructor <;> rfl
  refine ⟨(x.ends t).advance, if_neg (mt List.contains_iff_mem.mp unlisted), ?_, cpsr, went, xfer,
    same.trans system, fun p => ?_⟩
  · rw [regs', loadedList_eq, ← regs]
  · rw [State.advance_byteAt, MultipleForm.ends_byteAt, memory]

/-- Settles O29: the words are read in order into their registers, the base follows, and LoadPC comes last. -/
theorem loadMultipleResult : Obligations.LoadMultipleResult := by
  unfold Obligations.LoadMultipleResult
  intro i x v s form cond quiet readable last
  obtain ⟨t, run, framed, memory, regs⟩ := loadMultiple_readable (k := x.loadEnds) quiet readable last
  rw [exec_loadMultiple_ends form cond, run]
  have pc (listed : 15 ∈ x.regs) := loadEnds_pc framed memory regs listed v
  exact ⟨fun unlisted => loadEnds_done framed memory regs unlisted v, fun listed => (pc listed).thumb,
    fun listed => (pc listed).arm, fun listed => (pc listed).refused, fun listed => (pc listed).kept⟩

end Sys2Proof.Machine
end

section
/-! SUPPORT. Proofs: the loads, stores and swaps that a rule excludes (R215, R216, R226, R229 to R232, R234, R238, R239, R241,
U-G7, U-G8, U-G11, D14). -/

namespace Sys2Proof.Machine

variable {s : State}

/-! ## Answers that are refusals -/

/-- The answer is a refusal, whichever rule it is that refuses. -/
def Stops (r : Result) : Prop := ∃ why, r = .refused why

theorem refuseIf_stops {b : Bool} {r : Refusal} {k : Result} (h : b = false → Stops k) : Stops (refuseIf b r k) := by
  cases b with
  | false => exact h rfl
  | true => exact ⟨r, rfl⟩

theorem onCond_stops {c : Cond} {k : State → Result} (cond : Cond.holds c s.cpsr = true) (h : Stops (k s)) :
    Stops (onCond c k s) := by
  rw [onCond_pass k cond]
  exact h

/-! ## Addressing modes 2 and 3 (R215, R216) -/

theorem transferGuard_stops {wb noRd15 : Bool} {rn rd : Reg} {rm : Option Reg} {k : Result} (h : Stops k) :
    Stops (transferGuard wb rn rd rm noRd15 k) := refuseIf_stops fun _ => refuseIf_stops fun _ => h

theorem transferGuard_illegal {wb noRd15 : Bool} {rn rd : Reg} {rm : Option Reg}
    (illegal : transferLegal wb rn rd rm noRd15 = false) (k : Result) : Stops (transferGuard wb rn rd rm noRd15 k) := by
  refine refuseIf_stops fun noPc => ?_
  have clash : (wb && (decide (rd = rn) || decide (rm = some rn))) = true := by
    simp only [transferLegal, ne_eq, decide_not, ← Bool.not_or] at illegal
    rwa [noPc, Bool.false_or, Bool.not_eq_false'] at illegal
  rw [clash]
  exact ⟨_, rfl⟩

section

variable {op : Reg → Reg → Addressed → State → Result} {c : Cond} {rn rd : Reg}

theorem mode2Imm_illegal {noRd15 : Bool} {x : Indexing} {u : Bool} {imm : BitVec 12} (cond : Cond.holds c s.cpsr = true)
    (illegal : transferLegal (writesBack x) rn rd none noRd15 = false) : Stops (mode2Imm op noRd15 c x u rn rd imm s) :=
  onCond_stops cond (transferGuard_illegal illegal _)

theorem mode2Reg_illegal {noRd15 : Bool} {x : Indexing} {u : Bool} {sh : BitVec 5} {k : ShiftKind} {rm : Reg}
    (cond : Cond.holds c s.cpsr = true) (illegal : transferLegal (writesBack x) rn rd (some rm) noRd15 = false) :
    Stops (mode2Reg op noRd15 c x u rn rd sh k rm s) :=
  onCond_stops cond (transferGuard_illegal illegal _)

variable {p u w : Bool} {rm : Option Reg} {offset : Word}

/-- A form of addressing mode 3 stops where it has no address, or its registers are excluded. -/
theorem mode3_illegal (illegal : p = false ∧ w = true ∨ transferLegal (!p || w) rn rd rm true = false) :
    Stops (mode3 op p u w rn rd rm offset s) := by
  unfold mode3
  split
  · exact ⟨_, rfl⟩
  next m mode =>
    refine transferGuard_illegal (illegal.resolve_left ?_) _
    rintro ⟨rfl, rfl⟩
    cases mode

/-- A form of addressing mode 3 stops where its operation does. -/
theorem mode3_stops (h : ∀ m, addressMode3 p u w (s.reg rn) offset = some m → Stops (op rn rd m s)) :
    Stops (mode3 op p u w rn rd rm offset s) := by
  unfold mode3
  split
  · exact ⟨_, rfl⟩
  next m mode => exact transferGuard_stops (h m mode)

theorem mode3_stops_at {m : Addressed} (mode : addressMode3 p u w (s.reg rn) offset = some m) (h : Stops (op rn rd m s)) :
    Stops (mode3 op p u w rn rd rm offset s) :=
  mode3_stops fun m' mode' => by
    obtain rfl := Option.some.inj (mode.symm.trans mode')
    exact h

end

/-! ## Halfwords and doublewords (R226, R229, R230) -/

theorem misaligned_half_of_odd {a : Word} (odd : a.toNat % 2 = 1) : misaligned .half a = true := by
  rw [misaligned, decide_eq_true_eq]
  intro aligned
  have even := toNat_alignHalf a
  rw [aligned] at even
  omega

theorem loadNarrow_unaligned {user : Bool} {ext : Word → Word} {rn rd : Reg} {m : Addressed} (unchecked : s.cp15.a = false)
    (odd : m.address.toNat % 2 = 1) : Stops (loadNarrow user .half ext rn rd m s) := by
  rw [loadNarrow, unchecked, misaligned_half_of_odd odd]
  exact ⟨_, rfl⟩

theorem storeHalf_unaligned {rn rd : Reg} {m : Addressed} (unchecked : s.cp15.a = false) (odd : m.address.toNat % 2 = 1) :
    Stops (storeHalf rn rd m s) := by
  rw [storeHalf, unchecked, misaligned_half_of_odd odd]
  exact ⟨_, rfl⟩

section

variable {rn rd : Reg} {abort ok : Result}

theorem doubleGuard_registers {wb : Bool} {a : Word} (h : rd.toNat % 2 = 1 ∨ rd = 14 ∨ wb = true ∧ rn = rd + 1) :
    Stops (doubleGuard wb rn rd a s abort ok) := by
  refine refuseIf_stops fun even => refuseIf_stops fun rd14 => refuseIf_stops fun base => ?_
  rcases h with odd | rfl | ⟨rfl, rfl⟩
  · rw [BitVec.getLsbD, Nat.testBit_zero, odd] at even
    cases even
  · cases rd14
  · simp at base

theorem doubleGuard_unaligned {wb : Bool} {a : Word} (unchecked : s.cp15.a = false) (unaligned : a.toNat % 8 ≠ 0) :
    Stops (doubleGuard wb rn rd a s abort ok) := by
  refine refuseIf_stops fun _ => refuseIf_stops fun _ => refuseIf_stops fun _ => ?_
  rw [doubleMisaligned_eq, decide_eq_true unaligned, unchecked]
  exact ⟨_, rfl⟩

end

section

variable {p u w : Bool} {rn rd : Reg} {rm : Option Reg} {offset : Word} {m : Addressed}

/-- The halfwords of ARM state at an odd address with A = 0 (R57). -/
theorem halfwords_unaligned (mode : addressMode3 p u w (s.reg rn) offset = some m) (unchecked : s.cp15.a = false)
    (odd : m.address.toNat % 2 = 1) :
    (∀ ext, Stops (mode3 (loadNarrow false .half ext) p u w rn rd rm offset s)) ∧
      Stops (mode3 storeHalf p u w rn rd rm offset s) :=
  ⟨fun _ => mode3_stops_at mode (loadNarrow_unaligned unchecked odd),
    mode3_stops_at mode (storeHalf_unaligned unchecked odd)⟩

/-- The doubleword operations stop where their guard does. -/
theorem doublewords_stop (index : Reg) (h : ∀ m, addressMode3 p u w (s.reg rn) offset = some m →
      ∀ abort ok, Stops (doubleGuard m.newBase.isSome rn rd m.address s abort ok)) :
    Stops (mode3 loadDouble p u w rn rd rm offset s) ∧ Stops (mode3 (loadDoubleReg index) p u w rn rd rm offset s) ∧
      Stops (mode3 storeDouble p u w rn rd rm offset s) :=
  ⟨mode3_stops fun m mode => h m mode _ _, mode3_stops fun m mode => refuseIf_stops fun _ => h m mode _ _,
    mode3_stops fun m mode => h m mode _ _⟩

theorem doublewords_registers (index : Reg) (h : rd.toNat % 2 = 1 ∨ rd = 14 ∨ (!p || w) = true ∧ rn = rd + 1) :
    Stops (mode3 loadDouble p u w rn rd rm offset s) ∧ Stops (mode3 (loadDoubleReg index) p u w rn rd rm offset s) ∧
      Stops (mode3 storeDouble p u w rn rd rm offset s) :=
  doublewords_stop index fun m mode abort ok => doubleGuard_registers (by rwa [addressMode3_newBase mode])

theorem doublewords_unaligned (index : Reg) (mode : addressMode3 p u w (s.reg rn) offset = some m)
    (unchecked : s.cp15.a = false) (unaligned : m.address.toNat % 8 ≠ 0) :
    Stops (mode3 loadDouble p u w rn rd rm offset s) ∧ Stops (mode3 (loadDoubleReg index) p u w rn rd rm offset s) ∧
      Stops (mode3 storeDouble p u w rn rd rm offset s) :=
  doublewords_stop index fun m' mode' abort ok => by
    obtain rfl := Option.some.inj (mode.symm.trans mode')
    exact doubleGuard_unaligned unchecked unaligned

end

theorem loadDoubleReg_clash {rm rn rd : Reg} {m : Addressed} (clash : rm = rd ∨ rm = rd + 1) :
    Stops (loadDoubleReg rm rn rd m s) := by
  rw [loadDoubleReg, decide_eq_true clash]
  exact ⟨_, rfl⟩

/-! ## Multiple transfers (R234, R237 to R241) -/

theorem listRegs_ne_nil {n : Nat} {list : BitVec n} (h : list ≠ 0) : listRegs list ≠ [] := by
  contrapose! h
  simp only [listRegs, List.map_eq_nil_iff, List.filter_eq_nil_iff, List.mem_range] at h
  exact BitVec.eq_of_getLsbD_eq fun i hi => by simpa using h i hi

/-- The instruction runs behind the guard for an empty list and for R15 as the base (R234). -/
def RunsListed (r : Result) (regs : List Reg) (rn : Reg) : Prop := ∃ k, r = multipleGuard regs.isEmpty rn k

theorem RunsListed.stop_empty {r : Result} {regs : List Reg} {rn : Reg} (listed : RunsListed r regs rn) (empty : regs = []) :
    r = .refused .emptyList := by
  obtain ⟨k, rfl⟩ := listed
  rw [empty]
  rfl

theorem RunsListed.stop_pc {r : Result} {regs : List Reg} (listed : RunsListed r regs 15) (nonempty : regs ≠ []) :
    r = .refused .r15Operand := by
  obtain ⟨k, rfl⟩ := listed
  rw [multipleGuard, List.isEmpty_eq_false_iff.mpr nonempty]
  rfl

section

variable {c : Cond} (p u w : Bool) (rn : Reg) (list : BitVec 16) (low : BitVec 15)

theorem exec_stmUser_guard (cond : Cond.holds c s.cpsr = true) :
    ∃ k, exec (.stmUser c p u w rn list) s = multipleGuard (listRegs list).isEmpty rn (userBankGuard w s k) :=
  ⟨_, (execStmUser.eq_def c p u w rn list s).trans (onCond_pass _ cond)⟩

theorem exec_ldmReturn_guard (cond : Cond.holds c s.cpsr = true) :
    ∃ k, exec (.ldmReturn c p u w rn low) s = refuseIf s.spsr?.isNone .noSpsr
      (multipleGuard false rn (refuseIf (w && (listRegs low ++ [15]).contains rn) .baseInList k)) :=
  ⟨_, (execLdmReturn.eq_def c p u w rn low s).trans (onCond_pass _ cond)⟩

/-- The four ARM instructions that have a list and return from no exception. -/
theorem arm_runsListed (cond : Cond.holds c s.cpsr = true) :
    RunsListed (exec (.ldm c p u w rn list) s) (listRegs list) rn ∧
      RunsListed (exec (.stm c p u w rn list) s) (listRegs list) rn ∧
      RunsListed (exec (.ldmUser c p u w rn low) s) (listRegs low) rn ∧
      RunsListed (exec (.stmUser c p u w rn list) s) (listRegs list) rn := by
  obtain ⟨k, user⟩ := exec_stmUser_guard p u w rn list cond
  exact ⟨⟨_, onCond_pass _ cond⟩, ⟨_, onCond_pass _ cond⟩, ⟨_, exec_ldmUser cond⟩, ⟨_, user⟩⟩

end

theorem thumb_runsListed (r : Bool) (lo : LoReg) (list : BitVec 8) (s : State) :
    RunsListed (exec (.tPush r list) s) (stackRegs list r lrReg) spReg ∧
      RunsListed (exec (.tPop r list) s) (stackRegs list r 15) spReg ∧
      RunsListed (exec (.tLdmia lo list) s) (listRegs list) lo.reg ∧
      RunsListed (exec (.tStmia lo list) s) (listRegs list) lo.reg :=
  ⟨⟨_, rfl⟩, ⟨_, rfl⟩, ⟨_, rfl⟩, ⟨_, rfl⟩⟩

/-- User and System mode have no SPSR (R22). -/
theorem spsr?_isNone_of_mode (h : s.mode = .usr ∨ s.mode = .sys) : s.spsr?.isNone = true := by
  unfold State.spsr?
  rcases h with mode | mode <;> rw [mode] <;> rfl

theorem userBankGuard_stops {w : Bool} (h : w = true ∨ s.mode = .usr ∨ s.mode = .sys) (k : Result) :
    userBankGuard w s k = .refused .userTransfer := by
  rw [userBankGuard]
  rcases h with rfl | mode
  · rfl
  · rw [spsr?_isNone_of_mode mode, Bool.or_true]
    rfl

theorem ldmList_base {p up : Bool} {rn : Reg} {regs : List Reg} (rn15 : rn ≠ 15) (member : rn ∈ regs) :
    ldmList p up true rn regs s = .refused .baseInList := by
  rw [ldmList, multipleGuard_legal (List.ne_nil_of_mem member) rn15, List.contains_iff_mem.mpr member]
  rfl

/-! ## Swaps (R231, R232) -/

section

variable {size : Size} {c : Cond} {rn rd rm : Reg}

theorem swap_pc (cond : Cond.holds c s.cpsr = true) (pc : rn = 15 ∨ rd = 15 ∨ rm = 15) :
    swap size c rn rd 0 rm s = .refused .r15Operand := by
  have named : usesR15 [rn, rd, rm] = true := by simpa [usesR15_cons, usesR15_nil] using pc
  rw [swap, onCond_pass _ cond, named]
  rfl

theorem swap_clash (cond : Cond.holds c s.cpsr = true) (rn15 : rn ≠ 15) (rd15 : rd ≠ 15) (rm15 : rm ≠ 15)
    (clash : rn = rm ∨ rn = rd) : swap size c rn rd 0 rm s = .refused .registerClash := by
  rw [swap, onCond_pass _ cond, (usesR15_cons_of_ne rn15).trans (usesR15_two rd15 rm15), decide_eq_true clash]
  rfl

end

/-! ## The obligation -/

/-- Settles O25: each of these runs into the guard of its form, of its list or of its operation. -/
theorem excludedTransfersStop : Obligations.ExcludedTransfersStop := by
  unfold Obligations.ExcludedTransfersStop
  intro c x u p w rn rd rm imm imm8 sh k lo list low s cond
  have imm3 {op : Reg → Reg → Addressed → State → Result} (h : Stops (mode3 op p u w rn rd none (imm8.setWidth 32) s)) :
      Stops (mode3Imm op c p u w rn rd imm8 s) := onCond_stops cond h
  have reg3 {op : Reg → Reg → Addressed → State → Result} (h : Stops (mode3 op p u w rn rd (some rm) (s.reg rm) s)) :
      Stops (mode3Reg op c p u w rn rd 0 rm s) := onCond_stops cond h
  simp only [List.forall_mem_cons, List.not_mem_nil, IsEmpty.forall_iff, implies_true, and_true]
  refine ⟨fun illegal => ?_, fun illegal => ?_, fun illegal => ?_, fun illegal => ?_, fun illegal => ?_, fun illegal => ?_,
    fun illegal => ?_, fun illegal => ?_, ?_, fun listed lowListed => ?_, fun rn15 member => ?_,
    fun listed lowListed rn15 excluded => ?_, fun mode => ?_, fun usr sys => ?_, fun registers => ?_, fun clash => ?_,
    fun pc => ?_, fun rn15 rd15 rm15 clash => ?_, fun unchecked m => ⟨fun mode => ?_, fun mode => ?_⟩⟩
  · exact ⟨mode2Imm_illegal cond illegal, mode2Imm_illegal cond illegal⟩
  · exact ⟨mode2Reg_illegal cond illegal, mode2Reg_illegal cond illegal⟩
  · exact ⟨mode2Imm_illegal cond illegal, mode2Imm_illegal cond illegal⟩
  · exact ⟨mode2Reg_illegal cond illegal, mode2Reg_illegal cond illegal⟩
  · have stops (op : Reg → Reg → Addressed → State → Result) :=
      mode2Imm_illegal (op := op) (x := .postIndexed) (u := u) (imm := imm) cond illegal
    exact ⟨stops _, stops _, stops _, stops _⟩
  · have stops (op : Reg → Reg → Addressed → State → Result) :=
      mode2Reg_illegal (op := op) (x := .postIndexed) (u := u) (sh := sh) (k := k) cond illegal
    exact ⟨stops _, stops _, stops _, stops _⟩
  · have stops (op : Reg → Reg → Addressed → State → Result) := imm3 (mode3_illegal (op := op) illegal)
    exact ⟨stops _, stops _, stops _, stops _, stops _, stops _⟩
  · have stops (op : Reg → Reg → Addressed → State → Result) := reg3 (mode3_illegal (op := op) illegal)
    exact ⟨stops _, stops _, stops _, stops _, stops _, stops _⟩
  · obtain ⟨ldm, stm, ldmUser, stmUser⟩ := arm_runsListed p u w rn 0 0 cond
    obtain ⟨push, pop, ldmia, stmia⟩ := thumb_runsListed false lo 0 s
    exact ⟨ldm.stop_empty rfl, stm.stop_empty rfl, ldmUser.stop_empty rfl, stmUser.stop_empty rfl, push.stop_empty rfl,
      pop.stop_empty rfl, ldmia.stop_empty rfl, stmia.stop_empty rfl⟩
  · obtain ⟨ldm, stm, ldmUser, stmUser⟩ := arm_runsListed p u w 15 list low cond
    have nonempty := listRegs_ne_nil listed
    exact ⟨ldm.stop_pc nonempty, stm.stop_pc nonempty, ldmUser.stop_pc (listRegs_ne_nil lowListed),
      stmUser.stop_pc nonempty⟩
  · exact (onCond_pass _ cond).trans (ldmList_base rn15 member)
  · obtain ⟨store, user⟩ := exec_stmUser_guard p u w rn list cond
    rw [exec_ldmUser cond, user, multipleGuard_legal (listRegs_ne_nil lowListed) rn15,
      multipleGuard_legal (listRegs_ne_nil listed) rn15]
    exact ⟨userBankGuard_stops excluded _, userBankGuard_stops excluded _⟩
  · obtain ⟨k, run⟩ := exec_ldmReturn_guard p u w rn low cond
    rw [run, spsr?_isNone_of_mode mode, refuseIf_true]
  · have saved : s.spsr?.isNone = false := spsr?_isNone (not_or.mpr ⟨usr, sys⟩)
    refine ⟨?_, fun rn15 member => ?_⟩
    · obtain ⟨k, run⟩ := exec_ldmReturn_guard p u w 15 low cond
      rw [run, saved]
      rfl
    · obtain ⟨k, run⟩ := exec_ldmReturn_guard p u true rn low cond
      have listed : (listRegs low ++ [15]).contains rn = true := List.contains_iff_mem.mpr (List.mem_append_left [15] member)
      rw [run, saved, multipleGuard, decide_eq_false rn15, listed]
      rfl
  · obtain ⟨load, -, store⟩ := doublewords_registers rm registers
    obtain ⟨-, load', store'⟩ := doublewords_registers rm registers
    exact ⟨imm3 load, imm3 store, reg3 load', reg3 store'⟩
  · exact reg3 (mode3_stops fun m mode => loadDoubleReg_clash clash)
  · exact ⟨swap_pc cond pc, swap_pc cond pc⟩
  · exact ⟨swap_clash cond rn15 rd15 rm15 clash, swap_clash cond rn15 rd15 rm15 clash⟩
  · refine ⟨fun odd => ?_, fun unaligned => ?_⟩
    · obtain ⟨load, store⟩ := halfwords_unaligned mode unchecked odd
      exact ⟨imm3 (load id), imm3 (load signHalf), imm3 store⟩
    · obtain ⟨load, -, store⟩ := doublewords_unaligned rm mode unchecked unaligned
      exact ⟨imm3 load, imm3 store⟩
  · refine ⟨fun odd => ?_, fun unaligned => ?_⟩
    · obtain ⟨load, store⟩ := halfwords_unaligned mode unchecked odd
      exact ⟨reg3 (load id), reg3 (load signHalf), reg3 store⟩
    · obtain ⟨-, load, store⟩ := doublewords_unaligned rm mode unchecked unaligned
      exact ⟨reg3 load, reg3 store⟩

end Sys2Proof.Machine
end

section
/-! SUPPORT. Proofs: load multiple with exception return (R239, R325). -/

namespace Sys2Proof.Machine

variable {s t : State}

/-! ## The return (R325) -/

/-- An exception return from a mode whose SPSR has a legal mode in it. -/
theorem exceptionReturn_legal {k : Fin 5} (v : Word) (index : s.mode.spsrIndex = some k)
    (legal : (Mode.ofBits (Psr.m s.spsr[k])).isSome = true) :
    exceptionReturn v s = .next ((s.setCpsr s.spsr[k]).jump (returnTarget (Psr.t s.spsr[k]) v)) := by
  have saved : s.spsr? = some s.spsr[k] := by rw [State.spsr?, index]; rfl
  rw [exceptionReturn, saved]
  exact if_pos legal

/-- An exception return from the midst of an instruction: the mode and the SPSR are those the instruction began with. -/
theorem Framed.exceptionReturn {k : Fin 5} (h : Framed s t) (memory : SameMemory s t) (v : Word)
    (index : s.mode.spsrIndex = some k) (legal : (Mode.ofBits (Psr.m s.spsr[k])).isSome = true) :
    ∃ t', Machine.exceptionReturn v t = .next t' ∧
      PcLoaded s t.regs s.spsr[k] (returnTarget (Psr.t s.spsr[k]) v) t' := by
  have run := exceptionReturn_legal (s := t) (k := k) v (by rw [h.mode, index]) (by rw [h.system.spsr, legal])
  rw [h.system.spsr] at run
  exact ⟨_, run, h.jump_setCpsr memory _ _⟩

/-! ## The registers -/

/-- The base is written back over the registers of the list. -/
theorem setReg?_loadedList {x : MultipleForm} (h : Framed s t) (regs : t.regs = s.listLoaded x) :
    (t.setReg? x.rn x.newBase).regs = s.loadedList x := by
  rw [loadedList_eq, ← regs]
  exact (h.withRegs t.regs).setReg?_regs rfl x.rn x.newBase

/-! ## The instruction (R239) -/

/-- The words go to the registers of the current mode; the base follows, and the exception return comes last. -/
theorem exec_ldmReturn_ends {c : Cond} {p up w : Bool} {rn : Reg} {list : BitVec 15} {x : MultipleForm}
    (form : s.mode4 c s.mode p up w rn (listRegs list ++ [15]) false = some x) (cond : Cond.holds c s.cpsr = true)
    (saved : s.spsr?.isNone = false) (apart : w = true → rn ∉ listRegs list) :
    exec (.ldmReturn c p up w rn list) s = loadMultiple x.bank x.rn x.start x.regs s
      fun last t => exceptionReturn last (t.setReg? x.rn x.newBase) := by
  obtain ⟨-, rn15, rfl⟩ := mode4_some form
  have unlisted : (w && (listRegs list ++ [15]).contains rn) = false := by
    cases w with
    | false => rfl
    | true => simpa using ⟨apart rfl, rn15⟩
  refine (execLdmReturn.eq_def c p up w rn list s).trans ((onCond_pass _ cond).trans ?_)
  dsimp only
  rw [saved, unlisted, multipleGuard, decide_eq_false rn15]
  cases w <;> rfl

/-- Settles O30: every word is read before the CPSR changes, so into the bank of the mode that the return leaves. -/
theorem loadMultipleReturnResult : Obligations.LoadMultipleReturnResult := by
  unfold Obligations.LoadMultipleReturnResult
  intro c p up w rn list x k v s cond index legal form apart quiet readable last
  have saved : s.spsr?.isNone = false := by rw [State.spsr?, index]; rfl
  obtain ⟨t, run, framed, memory, regs⟩ := loadMultiple_readable quiet readable last
  obtain ⟨t', returns, loaded⟩ := (framed.trans (.setReg? t x.rn x.newBase)).exceptionReturn
    (memory.setReg? x.rn x.newBase) v index legal
  rw [setReg?_loadedList framed regs] at loaded
  exact ⟨t', (exec_ldmReturn_ends form cond saved apart).trans (run.trans returns), loaded⟩

end Sys2Proof.Machine
end

section
/-! SUPPORT. Proofs: what a halfword decodes to, by the bits of its format (R115). -/

namespace Sys2Proof

/-- A halfword with an instruction's fields decodes to it. -/
theorem decode_halfword {i : Instr} {h : BitVec 16} {f : ThumbWord} (bits : f = .ofBits h)
    (fields : encodeFields i = .thumb f) (wf : i.wellFormed = true) : decode (.thumb h) = i :=
  decode_thumb (fields.trans (congrArg Fields.thumb bits)) wf

theorem ThumbWord.ofBits_r10 (h : BitVec 16) : (ThumbWord.ofBits h).r10 = h.extractLsb' 8 3 := by
  simp only [ThumbWord.r10, ThumbWord.ofBits, ofBool_getLsbD, BitVec.extractLsb'_append_extractLsb'_eq_extractLsb']

theorem ThumbWord.ofBits_imm8 (h : BitVec 16) : (ThumbWord.ofBits h).imm8 = h.extractLsb' 0 8 := by
  simp only [ThumbWord.imm8, ThumbWord.ofBits, ofBool_getLsbD, BitVec.extractLsb'_append_extractLsb'_eq_extractLsb']

/-- Two registers below ten bits of opcode (format T4). -/
theorem ofBits_twoRegisters (p : BitVec 10) (m d : LoReg) :
    (⟨p.getLsbD 9, p.getLsbD 8, p.getLsbD 7, p.getLsbD 6, p.getLsbD 5, p.getLsbD 4, p.getLsbD 3, p.getLsbD 2, p.getLsbD 1,
      p.getLsbD 0, m, d⟩ : ThumbWord) = .ofBits (p ++ m ++ d) := by
  simp (disch := decide) only [ThumbWord.ofBits, BitVec.getLsbD_append, Nat.reduceLT, Nat.reduceSub, if_false,
    BitVec.extractLsb'_append_eq_of_add_le, BitVec.extractLsb'_append_eq_of_le, BitVec.extractLsb'_eq_self]

/-- A register and a byte below five bits of opcode (formats T3 and T12). -/
theorem ofBits_registerByte (p : BitVec 5) (r : LoReg) (x : BitVec 8) :
    Enc.tImm8 (p.getLsbD 4) (p.getLsbD 3) (p.getLsbD 2) (p.getLsbD 1) (p.getLsbD 0) r x = .ofBits (p ++ r ++ x) := by
  rw [Enc.tImm8_eq_iff, ThumbWord.ofBits_r10, ThumbWord.ofBits_imm8]
  simp (disch := decide) only [ThumbWord.ofBits, BitVec.getLsbD_append, Nat.reduceLT, Nat.reduceSub, if_false,
    BitVec.extractLsb'_append_eq_of_add_le, BitVec.extractLsb'_append_eq_of_le, BitVec.extractLsb'_eq_self, and_self]

/-- Seven bits below nine bits of opcode (format T13). -/
theorem ofBits_sevenBits (p : BitVec 9) (x : BitVec 7) :
    (⟨p.getLsbD 8, p.getLsbD 7, p.getLsbD 6, p.getLsbD 5, p.getLsbD 4, p.getLsbD 3, p.getLsbD 2, p.getLsbD 1, p.getLsbD 0,
      x.getLsbD 6, x.extractLsb' 3 3, x.extractLsb' 0 3⟩ : ThumbWord) = .ofBits (p ++ x) := by
  simp (disch := decide) only [ThumbWord.ofBits, BitVec.getLsbD_append, Nat.reduceLT, Nat.reduceSub, if_true, if_false,
    BitVec.extractLsb'_append_eq_of_add_le]

end Sys2Proof
end

section
/-! SUPPORT. Proofs: the Thumb data processing (R243 to R277). -/

namespace Sys2Proof.Machine

variable {s : State}

/-! ## The shared operations -/

theorem setNz_advance (r : Word) (s : State) :
    (s.setNz r).advance = s.flagged (Psr.setNz s.cpsr r.msb (decide (r = 0))) := by
  rw [State.advance, State.setNz_nextPc]
  rfl

theorem setFlags_advance (o : AluOut) (s : State) : (s.setFlags o).advance = s.flagged (flagsOf s.cpsr o) := by
  rw [State.advance, State.setFlags_nextPc]
  rfl

theorem thumbLogic_eq (rd : LoReg) (r : Word) (s : State) :
    thumbLogic rd r s = .next (s.wroteFlags rd.reg r (Psr.setNz s.cpsr r.msb (decide (r = 0)))) := by
  rw [thumbLogic, setNz_advance]
  rfl

theorem thumbArith_eq (rd : LoReg) (o : AluOut) (s : State) :
    thumbArith rd o s = .next (s.wroteFlags rd.reg o.result (flagsOf s.cpsr o)) := by
  rw [thumbArith, setFlags_advance]
  rfl

theorem thumbCompare_eq (o : AluOut) (s : State) : thumbCompare o s = .next (s.flagged (flagsOf s.cpsr o)) := by
  rw [thumbCompare, setFlags_advance]

section
variable (rd : LoReg) (x y : Word) (cin : Bool)

theorem thumbArith_add : thumbArith rd (addFlags x y cin) s =
    .next (s.wroteFlags rd.reg (sumRule x y cin).result (flagsOf s.cpsr (sumRule x y cin))) := by
  rw [thumbArith_eq, addFlags_eq_sumRule]

theorem thumbArith_sub : thumbArith rd (subFlags x y cin) s =
    .next (s.wroteFlags rd.reg (sumRule x (~~~y) cin).result (flagsOf s.cpsr (sumRule x (~~~y) cin))) := by
  rw [thumbArith_eq, subFlags_eq_sumRule]

theorem thumbCompare_add :
    thumbCompare (addFlags x y cin) s = .next (s.flagged (flagsOf s.cpsr (sumRule x y cin))) := by
  rw [thumbCompare_eq, addFlags_eq_sumRule]

theorem thumbCompare_sub :
    thumbCompare (subFlags x y cin) s = .next (s.flagged (flagsOf s.cpsr (sumRule x (~~~y) cin))) := by
  rw [thumbCompare_eq, subFlags_eq_sumRule]

theorem thumbShift_eq (o : ShifterOut) (s : State) : thumbShift rd o s =
    .next (s.wroteFlags rd.reg o.value (flagsOf s.cpsr ⟨o.value, o.carry, Psr.v s.cpsr⟩)) :=
  thumbArith_eq ..

end

/-! ## AND, EOR, ORR, BIC, MVN (R255, R256, R267, R269, R270) -/

/-- Settles O34: each opcode's ten bits are the instruction's own, and what each writes is a logical result. -/
theorem thumbLogicRules : Obligations.ThumbLogicRules := by
  unfold Obligations.ThumbLogicRules
  intro rm rd s a b x member
  simp only [List.mem_cons, List.not_mem_nil, or_false] at member
  obtain rfl | rfl | rfl | rfl | rfl := member
  all_goals
    dsimp only
    exact ⟨decode_halfword (ofBits_twoRegisters _ rm rd) rfl rfl, thumbLogic_eq ..⟩

/-! ## Additions to the PC and to SP (R274 to R277) -/

theorem scaled_eq {n : Nat} (imm : BitVec n) (k : Nat) : scaled imm k = BitVec.ofNat 32 (k * imm.toNat) := by
  rw [scaled, Nat.mul_comm]

theorem thumbPcBase_eq (thumb : s.thumb = true) : s.thumbPcBase = (s.pc + 4) &&& 0xFFFFFFFC := by
  rw [State.thumbPcBase, State.readPc, thumb]
  rfl

/-- Settles O35: the model's scaled immediate and its aligned PC are those of the rules. -/
theorem thumbAddressRules : Obligations.ThumbAddressRules := by
  unfold Obligations.ThumbAddressRules
  intro rd i8 i7 s thumb wide
  simp only [wide, ← scaled_eq, ← thumbPcBase_eq thumb]
  exact ⟨decode_halfword (ofBits_registerByte _ rd i8) rfl rfl, decode_halfword (ofBits_registerByte _ rd i8) rfl rfl,
    decode_halfword (ofBits_sevenBits _ i7) rfl rfl, decode_halfword (ofBits_sevenBits _ i7) rfl rfl, rfl, rfl, rfl, rfl⟩

/-! ## High registers (R243, R271 to R273) -/

/-- A low register's number has its top bit clear. -/
theorem not_getLsbD_three (r : Reg) : (!r.getLsbD 3) = decide (r.toNat < 8) := by
  rw [show r.getLsbD 3 = decide (8 ≤ r.toNat) from BitVec.msb_eq_decide r, ← decide_not, decide_eq_decide, not_le]

theorem bothLow_eq (a b : Reg) : bothLow a b = decide (a.toNat < 8 ∧ b.toNat < 8) := by
  rw [bothLow, not_getLsbD_three, not_getLsbD_three, Bool.decide_and]

section
variable {rm rd : Reg} (k : Result)

theorem refuseIf_bothLow (low : rm.toNat < 8 ∧ rd.toNat < 8) :
    refuseIf (bothLow rm rd) .reservedField k = .refused .reservedField := by
  rw [bothLow_eq, decide_eq_true low, refuseIf_true]

theorem refuseIf_notBothLow (high : ¬(rm.toNat < 8 ∧ rd.toNat < 8)) :
    refuseIf (bothLow rm rd) .reservedField k = k := by
  rw [bothLow_eq, decide_eq_false high, refuseIf_false]

end

theorem thumbWriteAny_eq (rd : Reg) (v : Word) (s : State) :
    thumbWriteAny rd v s = .next (if rd = 15 then s.jump (v &&& 0xFFFFFFFE) else s.wrote rd v) := by
  unfold thumbWriteAny
  split <;> rfl

/-- CMP (3) on registers it may name is a comparison (R272). -/
theorem exec_tCmpHi {rm rn : Reg} (high : ¬(rm.toNat < 8 ∧ rn.toNat < 8)) (rn15 : rn ≠ 15) :
    exec (.tCmpHi rm rn) s = thumbCompare (subFlags (s.reg rn) (s.reg rm) true) s := by
  refine (refuseIf_notBothLow _ high).trans ?_
  rw [usesR15_one rn15, refuseIf_false]

/-- Settles O37: the guard on two low registers comes first, R15 as a destination or an operand after it. -/
theorem thumbHighRegisterResult : Obligations.ThumbHighRegisterResult := by
  unfold Obligations.ThumbHighRegisterResult
  intro rm rd s write
  split
  next low =>
    simp only [List.forall_mem_cons]
    exact ⟨refuseIf_bothLow _ low, refuseIf_bothLow _ low, refuseIf_bothLow _ low, fun _ h => absurd h List.not_mem_nil⟩
  next high =>
    refine ⟨(refuseIf_notBothLow _ high).trans (thumbWriteAny_eq ..),
      (refuseIf_notBothLow _ high).trans (thumbWriteAny_eq ..), ?_⟩
    rintro rfl
    exact refuseIf_notBothLow _ high

/-! ## Shifts, additions, subtractions, comparisons, MOV, TST, MUL (R244 to R254, R257 to R266, R268, R272) -/

theorem exec_tTst (rm rn : LoReg) (s : State) :
    let r := s.reg rn.reg &&& s.reg rm.reg
    exec (.tTst rm rn) s = .next (s.flagged (Psr.setNz s.cpsr r.msb (decide (r = 0)))) :=
  congrArg Host.Outcome.next (setNz_advance ..)

theorem mul_eq_ofNat (a b : Word) : a * b = BitVec.ofNat 32 (a.toNat * b.toNat) := by
  rw [BitVec.ofNat_mul, BitVec.ofNat_toNat, BitVec.ofNat_toNat, BitVec.setWidth_eq, BitVec.setWidth_eq]

theorem exec_tMul (rm rd : LoReg) (s : State) :
    let r := BitVec.ofNat 32 ((s.reg rm.reg).toNat * (s.reg rd.reg).toNat)
    exec (.tMul rm rd) s = if rm = rd then .refused .registerClash
      else .next (s.wroteFlags rd.reg r (Psr.setNz s.cpsr r.msb (decide (r = 0)))) := by
  refine (refuseIf_eq_ite (rm = rd) .registerClash _).trans ?_
  rw [thumbLogic_eq, mul_eq_ofNat]

/-- Settles O36: each form is one of the shared operations, on the operands its rule names. -/
theorem thumbArithmeticResult : Obligations.ThumbArithmeticResult := by
  unfold Obligations.ThumbArithmeticResult
  intro rm rn rd i3 i5 i8 hm hn s x w3 w8 set compare shift logic product
  refine ⟨?arithmetic, ?comparisons, ?shifts, thumbLogic_eq .., exec_tMul ..⟩
  case arithmetic =>
    exact ⟨thumbArith_add .., thumbArith_add .., thumbArith_add .., thumbArith_add .., thumbArith_sub ..,
      thumbArith_sub .., thumbArith_sub .., thumbArith_sub .., thumbArith_sub ..⟩
  case comparisons =>
    refine ⟨thumbCompare_sub .., thumbCompare_sub .., thumbCompare_add .., fun high hn15 => ?_, exec_tTst ..⟩
    exact (exec_tCmpHi (by omega) hn15).trans (thumbCompare_sub ..)
  case shifts =>
    exact ⟨thumbShift_eq .., thumbShift_eq .., thumbShift_eq .., thumbShift_eq .., thumbShift_eq .., thumbShift_eq ..,
      thumbShift_eq ..⟩

end Sys2Proof.Machine
end

section
/-! SUPPORT. Proofs: exception entry, and the return that undoes it (R309 to R313, R325). -/

namespace Sys2Proof.Machine

variable {s : State} {x : Exc} {k : Fin 5}

/-! ## Entry (R312) -/

/-- The whole state after an exception entry: every exception is taken in a mode that has an SPSR. -/
theorem State.raise_eq (index : x.mode.spsrIndex = some k) :
    s.raise x = { s with
      regs := s.regs.set (physIndex x.mode 14) (s.link x)
      cpsr := x.newCpsr s.cpsr
      spsr := s.spsr.set k s.cpsr
      pc := s.vectorBase + x.offset
      fetch := { s.fetch with nonseq := true } } := by
  simp only [State.raise, State.takeException, State.setSpsr, index]
  rfl

/-- Settles O17: each row of the table names the exception's own mode, vector and link value, and the entry is one record
update. -/
theorem exceptionEntry : Obligations.ExceptionEntry := by
  unfold Obligations.ExceptionEntry
  intro s base next row member entered
  have named : row.1.mode = row.2.1 ∧ row.2.1.spsrIndex = some row.2.2.1 ∧ s.vectorBase + row.1.offset = row.2.2.2.1 ∧
      s.link row.1 = row.2.2.2.2 := by
    simp only [List.mem_cons, List.not_mem_nil, or_false] at member
    obtain rfl | rfl | rfl | rfl | rfl | rfl := member <;> exact ⟨rfl, rfl, rfl, rfl⟩
  obtain ⟨x, m, k, vector, link⟩ := row
  dsimp only at named
  obtain ⟨rfl, index, rfl, rfl⟩ := named
  obtain ⟨mode, thumb, irq, fiq, upper⟩ := Exc.newCpsr_fields x s.cpsr
  have entry : entered = _ := State.raise_eq index
  rw [entry]
  exact ⟨mode, thumb, irq, fiq, upper, rfl, rfl, rfl, rfl, rfl, rfl, rfl, rfl, rfl, rfl, rfl, rfl, rfl, rfl, rfl, rfl, rfl,
    rfl, rfl, rfl, rfl, rfl, rfl⟩

/-! ## The return instructions -/

/-- An operation that writes R15 with S = 1 is an exception return to its result (R171, R325). -/
theorem AluOp.run_return {op : AluOp} (rn : Reg) (v : ShifterOut) (writes : op.writes = true) :
    op.run true rn 15 v s =
      exceptionReturn (op.compute (s.reg rn) v.value v.carry s.cpsr).result s := by
  rw [AluOp.run, if_pos writes]
  rfl

/-- MOVS PC, Rm. -/
theorem exec_movs_pc (rm : Reg) : exec (.movShift .al true 0 15 0 .lsl rm) s = exceptionReturn (s.reg rm) s :=
  (exec_shiftForm .mov true 0 15 rm .lsl 0).trans (AluOp.run_return (op := .mov) 0 (immShiftOperand 0 .lsl rm s) rfl)

/-- SUBS PC, Rn, #imm. -/
theorem exec_subs_pc (rn : Reg) (imm : BitVec 8) :
    exec (.subImm .al true rn 15 0 imm) s = exceptionReturn (s.reg rn - imm.setWidth 32) s := by
  have unrotated : rotatedImm 0 imm = imm.setWidth 32 := by simp [rotatedImm, BitVec.rotateRight_def]
  have result : (AluOp.sub.compute (s.reg rn) (rotatedImm 0 imm) (Psr.c s.cpsr) s.cpsr).result =
      s.reg rn - imm.setWidth 32 := by
    rw [unrotated]
    exact BitVec.sub_zero _
  rw [← result]
  exact (exec_immForm .sub true rn 15 0 imm).trans (AluOp.run_return (op := .sub) rn (immOperand 0 imm s) rfl)

/-! ## What the handler finds -/

/-- R14 of the handler is the link value. -/
theorem State.raise_lr (s : State) (x : Exc) : (s.raise x).reg 14 = s.link x := by
  rw [State.reg_bank (by decide), State.raise_mode, State.bankReg, State.raise_regs]
  exact Vector.getElem_set_self _

/-- MOVS PC, R14 returns to the link value. -/
theorem exec_movs_pc_raise {v : Word} (link : s.link x = v) :
    exec (.movShift .al true 0 15 0 .lsl 14) (s.raise x) = exceptionReturn v (s.raise x) := by
  rw [exec_movs_pc, State.raise_lr, link]

/-- SUBS PC, R14, #imm returns to the address that many bytes before the link value. -/
theorem exec_subs_pc_raise {v : Word} {imm : BitVec 8} (link : s.link x = v + imm.setWidth 32) :
    exec (.subImm .al true 14 15 0 imm) (s.raise x) = exceptionReturn v (s.raise x) := by
  rw [exec_subs_pc, State.raise_lr, link, BitVec.add_sub_cancel]

/-- A return right after the entry restores the CPSR; the R14 and the SPSR of the handler's mode keep what the entry wrote. -/
theorem exceptionReturn_raise (v : Word) (index : x.mode.spsrIndex = some k)
    (legal : (Mode.ofBits (Psr.m s.cpsr)).isSome = true) :
    exceptionReturn v (s.raise x) = .next
      { s with
        regs := s.regs.set (physIndex x.mode 14) (s.link x)
        spsr := s.spsr.set k s.cpsr
        pc := returnTarget s.thumb v
        fetch := { s.fetch with nonseq := true } } := by
  have saved : (s.raise x).spsr[k] = s.cpsr := by
    rw [State.raise_eq index]
    exact Vector.getElem_set_self _
  rw [exceptionReturn_legal v (by rw [State.raise_mode, index]) (by rw [saved]; exact legal), saved, State.raise_eq index]
  rfl

/-! ## Where it goes on (R313) -/

/-- Outside debug state the pc is a multiple of the length of an instruction (R98). -/
theorem State.pcAligned.pc_mod (aligned : s.pcAligned) (running : s.dbg.inDebug = false) :
    s.pc.toNat % (if s.thumb then 2 else 4) = 0 := by
  have low := aligned running
  split at low
  next thumb =>
    rw [getLsbD_zero_eq, decide_eq_false_iff_not] at low
    rw [if_pos thumb]
    omega
  next arm =>
    have bits := congrArg BitVec.toNat low
    rw [if_neg arm]
    simpa using bits

/-- The address after the instruction is aligned where the pc is. -/
theorem State.nextPc_mod (aligned : s.pc.toNat % (if s.thumb then 2 else 4) = 0) :
    s.nextPc.toNat % (if s.thumb then 2 else 4) = 0 := by
  rw [State.nextPc, State.len, BitVec.toNat_add]
  split at aligned
  next thumb =>
    rw [if_pos thumb, if_pos thumb]
    show (s.pc.toNat + 2) % 2 ^ 32 % 2 = 0
    omega
  next arm =>
    rw [if_neg arm, if_neg arm]
    show (s.pc.toNat + 4) % 2 ^ 32 % 4 = 0
    omega

/-- A return to an aligned address clears no bit of it. -/
theorem returnTarget_aligned {thumb : Bool} {v : Word} (aligned : v.toNat % (if thumb then 2 else 4) = 0) :
    returnTarget thumb v = v := by
  cases thumb with
  | true => exact alignTo_half_of_mod aligned
  | false => exact alignTo_word_of_mod aligned

/-- Settles O19: the return instruction of each exception is an exception return to the address that R313 gives, which is
aligned. -/
theorem exceptionReturnsWhereItLeft : Obligations.ExceptionReturnsWhereItLeft := by
  unfold Obligations.ExceptionReturnsWhereItLeft
  intro s legal running aligned row member
  have here := aligned.pc_mod running
  have after := State.nextPc_mod here
  have returns : row.1.mode.spsrIndex = some row.2.1 ∧
      exec row.2.2.1 (s.raise row.1) = exceptionReturn row.2.2.2 (s.raise row.1) ∧
      row.2.2.2.toNat % (if s.thumb then 2 else 4) = 0 := by
    simp only [List.mem_cons, List.not_mem_nil, or_false] at member
    obtain rfl | rfl | rfl | rfl | rfl | rfl := member
    · exact ⟨rfl, exec_movs_pc_raise rfl, after⟩
    · exact ⟨rfl, exec_movs_pc_raise rfl, after⟩
    · exact ⟨rfl, exec_subs_pc_raise rfl, here⟩
    · exact ⟨rfl, exec_subs_pc_raise rfl, here⟩
    · exact ⟨rfl, exec_subs_pc_raise rfl, here⟩
    · exact ⟨rfl, exec_subs_pc_raise rfl, here⟩
  obtain ⟨index, run, target⟩ := returns
  rw [run, exceptionReturn_raise _ index legal, returnTarget_aligned target]

end Sys2Proof.Machine
end

section
/-! SUPPORT. Proofs: the state after reset (R351, R352). -/

namespace Sys2Proof.Machine

theorem State.reset_statusLegal : State.reset.statusLegal := by
  unfold State.statusLegal
  decide

theorem State.reset_streamLegal : State.reset.streamLegal := by
  unfold State.streamLegal State.pcAligned
  decide

theorem State.reset_buffersFit : State.reset.buffersFit := by
  unfold State.buffersFit
  decide

theorem State.reset_bistApart : State.reset.bistApart := by
  intro side
  cases side <;> decide

/-- The CPSR fields that R351 gives. -/
theorem State.reset_status : Psr.m State.reset.cpsr = 0b10011 ∧ Psr.t State.reset.cpsr = false ∧
    Psr.i State.reset.cpsr = true ∧ Psr.f State.reset.cpsr = true := by
  decide

/-- Both BIST engines are off after reset (R38). -/
theorem State.reset_bist (side : Side) : State.reset.bist side = .reset := by
  cases side <;> rfl

/-- Settles O52: the values of R351 and R352 are read off the reset state, and each invariant holds in it. -/
theorem resetState : Obligations.ResetState := by
  unfold Obligations.ResetState
  intro s
  obtain ⟨mode, thumb, irq, fiq⟩ := State.reset_status
  obtain ⟨legal, reserved, saved⟩ := State.reset_statusLegal
  refine ⟨mode, thumb, irq, fiq, reserved, rfl, rfl, rfl, rfl, rfl, rfl, rfl, rfl, rfl, rfl, rfl, rfl, rfl, fun side => ?_,
    rfl, rfl, rfl, rfl, rfl, rfl, rfl, State.reset_memoryInForm, ⟨legal, reserved, saved⟩, State.reset_streamLegal,
    State.reset_buffersFit, State.reset_bistApart⟩
  show Bist.enable (State.reset.bist side) = _ ∧ _
  rw [State.reset_bist]
  exact ⟨rfl, rfl, rfl, rfl, rfl⟩

end Sys2Proof.Machine
end

section
/-! SUPPORT. Proofs: data processing with Rd = R15, branches and exchanges of the instruction set (R24, R171, R205 to R210, R305,
R306). -/

namespace Sys2Proof.Machine

variable {s : State}

/-! ## Targets of jumps (R24, R205) -/

theorem low2_eq_zero_iff (v : Word) : v.extractLsb' 0 2 = 0 ↔ v.toNat % 4 = 0 := by
  rw [← BitVec.toNat_inj, BitVec.extractLsb'_toNat]
  simp

theorem writePcArm_eq (v : Word) :
    writePcArm v s = if v.toNat % 4 = 0 then .next (s.jump v) else .refused .branchTarget := by
  simp only [writePcArm, low2_eq_zero_iff]

theorem jumpTo_relativeTarget {base : Word} {x y : Int} (k : Word → State) (target : y = base.toNat + x) :
    jumpTo (relativeTarget base x) k =
      if 0 ≤ y ∧ y < 4294967296 then .next (k (BitVec.ofInt 32 y)) else .refused .addressWrap := by
  subst target
  rw [relativeTarget, ← show (2 : Int) ^ 32 = 4294967296 from rfl]
  by_cases inside : 0 ≤ base.toNat + x ∧ base.toNat + x < 2 ^ 32
  · rw [if_pos inside, if_pos inside]
    rfl
  · rw [if_neg inside, if_neg inside]
    rfl

/-! ## Rd = R15 (R171) -/

theorem AluOp.run_pc {op : AluOp} (sf : Bool) (rn : Reg) (v : ShifterOut) (writes : op.writes = true) :
    let r := (op.rule (s.reg rn) v.value v.carry s.cpsr).result
    op.run sf rn 15 v s = if sf then exceptionReturn r s else writePcArm r s := by
  intro r
  rw [AluOp.run, if_pos writes, aluWrite, if_pos rfl, op.compute_eq_rule]

/-- Settles O3: both operand forms run the template, which writes R15 as a branch or as a return. -/
theorem dataProcessingToPc : Obligations.DataProcessingToPc := by
  unfold Obligations.DataProcessingToPc
  intro op c rn rm rot imm sh k s writes cond form member
  have runs (sf : Bool) : exec (form.1 sf) s = op.run sf rn 15 form.2 s := by
    simp only [List.mem_cons, List.not_mem_nil, or_false] at member
    obtain rfl | rfl := member
    · rw [exec_immForm, onCond_pass _ cond]
    · rw [exec_shiftForm, onCond_pass _ cond]
  refine ⟨?_, ?_⟩
  · rw [runs, AluOp.run_pc false rn form.2 writes]
    exact writePcArm_eq _
  · rw [runs, AluOp.run_pc true rn form.2 writes]
    rfl

/-! ## B, BL, BLX (R206 to R208) -/

/-- Settles O13: the three instructions seek one target, BLX a halfword further if H is set. -/
theorem branchResult : Obligations.BranchResult := by
  unfold Obligations.BranchResult
  intro c h imm s linked t u
  have near : t = s.pc.toNat + branchOffset24 imm := by simp only [t, branchOffset24]; ring
  have far : u = s.pc.toNat + (branchOffset24 imm + 2 * h.toNat) := by simp only [u, near]; ring
  have b (cond : Cond.holds c s.cpsr = true) :
      exec (.b c imm) s = jumpTo (relativeTarget s.pc (branchOffset24 imm)) s.jump := onCond_pass _ cond
  have bl (cond : Cond.holds c s.cpsr = true) :
      exec (.bl c imm) s = jumpTo (relativeTarget s.pc (branchOffset24 imm)) linked.jump := onCond_pass _ cond
  have blx : exec (.blxImm h imm) s = jumpTo (relativeTarget s.pc (branchOffset24 imm + 2 * h.toNat))
      { linked with cpsr := Psr.setT s.cpsr true }.jump := rfl
  refine ⟨fun cond low high => ?_, fun cond out => ?_, fun low high => ?_, fun out => ?_⟩
  · rw [b cond, bl cond, jumpTo_relativeTarget _ near, jumpTo_relativeTarget _ near, if_pos ⟨low, high⟩,
      if_pos ⟨low, high⟩]
    exact ⟨rfl, rfl⟩
  · rw [b cond, bl cond, jumpTo_relativeTarget _ near, jumpTo_relativeTarget _ near, if_neg (by omega),
      if_neg (by omega)]
    exact ⟨rfl, rfl⟩
  · rw [blx, jumpTo_relativeTarget _ far, if_pos ⟨low, high⟩]
  · rw [blx, jumpTo_relativeTarget _ far, if_neg (by omega)]

/-! ## BX and BLX of a register (R209, R210, R305, R306) -/

theorem State.pcWraps_eq (s : State) :
    s.pcWraps = decide (4294967296 ≤ s.pc.toNat + (if s.thumb then 4 else 8)) := rfl

/-- The exchange of BX and BLX, by the low bits of the register: `u` is the state with the link value written. -/
theorem jumpExchange_cases {r : Result} {u : State} {v : Word} (runs : r = jumpExchange v u) :
    (v.toNat % 2 = 1 →
      r = .next ({ u with cpsr := Psr.setT u.cpsr true }.jump (BitVec.ofNat 32 (v.toNat - 1)))) ∧
    (v.toNat % 4 = 0 → r = .next ({ u with cpsr := Psr.setT u.cpsr false }.jump v)) ∧
    (v.toNat % 4 = 2 → r = .refused .branchTarget) := by
  refine ⟨fun odd => ?_, fun aligned => ?_, fun half => ?_⟩
  · have less : BitVec.ofNat 32 (v.toNat - 1) = v - 1 := by bv_omega
    rw [runs, jumpExchange_odd odd, less]
    rfl
  · rw [runs, jumpExchange_even (by omega), if_pos aligned]
    rfl
  · rw [runs, jumpExchange_even (by omega), if_neg (by omega)]

section

variable {c : Cond} (rm : Reg)

theorem exec_bx (cond : Cond.holds c s.cpsr = true) : exec (.bx c 15 15 15 rm) s =
    refuseIf (usesR15 [rm] && s.pcWraps) .addressWrap (jumpExchange (s.reg rm) s) := by
  change execBx c 15 15 15 rm s = _
  rw [execBx, onCond_pass _ cond]
  rfl

theorem exec_tBx : exec (.tBx rm 0) s =
    refuseIf (usesR15 [rm] && s.pcWraps) .addressWrap (jumpExchange (s.reg rm) s) := rfl

theorem exec_blxReg (cond : Cond.holds c s.cpsr = true) : exec (.blxReg c 15 15 15 rm) s =
    refuseIf (usesR15 [rm]) .r15Operand (jumpExchange (s.reg rm) s.linkNext) := by
  change execBlxReg c 15 15 15 rm s = _
  rw [execBlxReg, onCond_pass _ cond]
  rfl

theorem exec_tBlxReg : exec (.tBlxReg rm 0) s =
    refuseIf (usesR15 [rm]) .r15Operand (jumpExchange (s.reg rm) s.thumbLink) := rfl

end

/-- Settles O14: behind its guards each form is the exchange, from the state with its link value written. -/
theorem exchangeResult : Obligations.ExchangeResult := by
  unfold Obligations.ExchangeResult
  intro c rm s cond ahead
  have wraps : s.pcWraps = decide (4294967296 ≤ ahead) := rfl
  refine ⟨fun past i member => ?_, fun inside form member => ?_⟩
  · have stops : (usesR15 [15] && s.pcWraps) = true := by rw [wraps, decide_eq_true past]; rfl
    simp only [List.mem_cons, List.not_mem_nil, or_false] at member
    obtain rfl | rfl := member
    · rw [exec_bx 15 cond, stops, refuseIf_true]
    · rw [exec_tBx, stops, refuseIf_true]
  · have goesOn : (usesR15 [rm] && s.pcWraps) = false := by
      by_cases pc : rm = 15
      · rw [wraps, decide_eq_false (not_le.mpr (inside pc)), Bool.and_false]
      · rw [usesR15_one pc, Bool.false_and]
    simp only [List.mem_append, List.mem_cons, List.not_mem_nil, or_false] at member
    obtain (rfl | rfl) | member := member
    · exact jumpExchange_cases (u := s) (by rw [exec_bx rm cond, goesOn, refuseIf_false])
    · exact jumpExchange_cases (u := s) (by rw [exec_tBx, goesOn, refuseIf_false])
    · split at member
      next => exact absurd member List.not_mem_nil
      next pc =>
        simp only [List.mem_cons, List.not_mem_nil, or_false] at member
        obtain rfl | rfl := member
        · exact jumpExchange_cases (u := s.linkNext) (by rw [exec_blxReg rm cond, usesR15_one pc, refuseIf_false])
        · exact jumpExchange_cases (u := s.thumbLink) (by rw [exec_tBlxReg, usesR15_one pc, refuseIf_false])

end Sys2Proof.Machine
end

section
/-! SUPPORT. Proofs: MRS and MSR (R23, R211, R212). -/

namespace Sys2Proof.Machine

variable {s : State}

theorem State.spsr?_of_index {k : Fin 5} (index : s.mode.spsrIndex = some k) : s.spsr? = some s.spsr[k] := by
  rw [State.spsr?, index]
  rfl

/-- User and System mode have no SPSR (R22). -/
theorem State.spsr?_eq_none (unbanked : s.mode = .usr ∨ s.mode = .sys) : s.spsr? = none := by
  obtain mode | mode := unbanked <;> rw [State.spsr?, mode] <;> rfl

theorem exec_mrs {c : Cond} (r : Bool) (rd : Reg) (cond : Cond.holds c s.cpsr = true) :
    exec (.mrs c r 15 rd 0 0) s = refuseIf (usesR15 [rd]) .r15Operand
      (if r then
        match s.spsr? with
        | none => .refused .noSpsr
        | some p => .next (s.wrote rd p)
      else .next (s.wrote rd s.cpsr)) := by
  change execMrs c r 15 rd 0 0 s = _
  rw [execMrs, onCond_pass _ cond]
  rfl

/-- Settles O15, by the register that the instruction reads. -/
theorem statusRegisterRead : Obligations.StatusRegisterRead := by
  unfold Obligations.StatusRegisterRead
  intro c r rd s cond
  refine ⟨fun rd15 => ?_, fun rd15 k index => ?_, fun rd15 unbanked => ?_, fun rd15 => ?_⟩
  · rw [exec_mrs _ _ cond, usesR15_one rd15]
    rfl
  · rw [exec_mrs _ _ cond, usesR15_one rd15, State.spsr?_of_index index]
    rfl
  · rw [exec_mrs _ _ cond, usesR15_one rd15, State.spsr?_eq_none unbanked]
    rfl
  · rw [exec_mrs _ _ cond, rd15]
    rfl

/-! ## MSR (R212) -/

theorem psrByteMask_eq (mask : BitVec 4) : psrByteMask mask = fieldBits mask := by
  revert mask
  decide

theorem mergeBits_eq (old new mask : Word) : mergeBits old new mask = replaceBits old new mask := rfl

theorem execMsrReg_eq {c : Cond} (r : Bool) (mask : BitVec 4) (rm : Reg) (cond : Cond.holds c s.cpsr = true) :
    exec (.msrReg c r mask 15 0 rm) s = refuseIf (usesR15 [rm]) .r15Operand (msr r mask (s.reg rm) s) := by
  change execMsrReg c r mask 15 0 rm s = _
  rw [execMsrReg, onCond_pass _ cond]
  rfl

theorem execMsrImm_eq {c : Cond} (r : Bool) (mask rot : BitVec 4) (imm : BitVec 8)
    (cond : Cond.holds c s.cpsr = true) :
    exec (.msrImm c r mask 15 rot imm) s = msr r mask (rotatedImm rot imm) s := by
  change execMsrImm c r mask 15 rot imm s = _
  rw [execMsrImm, onCond_pass _ cond]
  rfl

section

variable {mask : BitVec 4} {v : Word}

theorem msr_eq (r : Bool) (some : mask ≠ 0) (clear : v &&& 0x07FFFF00 = 0) :
    msr r mask v s = if r then msrSpsr mask v s else msrCpsr mask v s := by
  rw [msr, if_neg some, psrUnallocMask, refuseIf_eq_ite, if_neg (not_not.mpr clear)]

theorem msr_reserved (r : Bool) (some : mask ≠ 0) (set : v &&& 0x07FFFF00 ≠ 0) :
    msr r mask v s = .refused .psrReservedBits := by
  rw [msr, if_neg some, psrUnallocMask, refuseIf_eq_ite, if_pos set]

/-- A write that leaves T out leaves the length of an instruction as it is. -/
theorem setCpsr_advance_of_t {p : Word} (same : Psr.t p = Psr.t s.cpsr) : (s.setCpsr p).advance = s.flagged p := by
  have next : (s.setCpsr p).nextPc = s.nextPc := by
    rw [State.nextPc, State.len, State.setCpsr_thumb, same]
    rfl
  rw [State.advance, next]
  rfl

theorem replaceBits_t {allowed : Word} (old new mask : Word) (noT : allowed.getLsbD 5 = false) :
    Psr.t (replaceBits old new (mask &&& allowed)) = Psr.t old := by
  simp only [Psr.t, replaceBits, BitVec.getLsbD_or, BitVec.getLsbD_and, BitVec.getLsbD_not, noT]
  simp

theorem msrCpsr_privileged (privileged : s.privileged = true) :
    let new := replaceBits s.cpsr v (fieldBits mask &&& 0xF80000DF)
    msrCpsr mask v s = if v &&& 0x20 ≠ 0 then .refused .msrTBit
      else if (Mode.ofBits (Psr.m new)).isSome then .next (s.flagged new) else .refused .illegalMode := by
  intro new
  have next : (s.setCpsr new).advance = s.flagged new := setCpsr_advance_of_t (replaceBits_t _ _ _ (by decide))
  rw [msrCpsr, if_pos privileged, psrByteMask_eq]
  change refuseIf (decide (v &&& 0x20 ≠ 0)) .msrTBit
    (refuseIf (!(Mode.ofBits (Psr.m new)).isSome) .illegalMode (.next (s.setCpsr new).advance)) = _
  rw [next, refuseIf_eq_ite]
  cases (Mode.ofBits (Psr.m new)).isSome <;> rfl

theorem msrCpsr_user (user : s.privileged = false) :
    msrCpsr mask v s = .next (s.flagged (replaceBits s.cpsr v (fieldBits mask &&& 0xF8000000))) := by
  rw [msrCpsr, user, if_neg Bool.false_ne_true, psrByteMask_eq, mergeBits_eq, psrUserMask,
    setCpsr_advance_of_t (replaceBits_t _ _ _ (by decide))]

theorem msrSpsr_index {k : Fin 5} (index : s.mode.spsrIndex = some k) : msrSpsr mask v s =
    .next { s with spsr := s.spsr.set k (replaceBits s.spsr[k] v (fieldBits mask &&& 0xF80000FF)), pc := s.nextPc } := by
  rw [msrSpsr, State.spsr?_of_index index, psrByteMask_eq]
  simp only [State.setSpsr, index]
  rfl

/-- What MSR does with an operand, in the terms of R212, said of any instruction that runs it. -/
theorem msr_result {form : Bool → Instr} (r : Bool) (runs : ∀ r, exec (form r) s = msr r mask v s) :
      let new (allowed : Word) : Word := replaceBits s.cpsr v (fieldBits mask &&& allowed)
      (mask = 0 → exec (form r) s = .next { s with pc := s.nextPc }) ∧
      (mask ≠ 0 → v &&& 0x07FFFF00 ≠ 0 → exec (form r) s = .refused .psrReservedBits) ∧
      (mask ≠ 0 → v &&& 0x07FFFF00 = 0 →
        (s.privileged = true → v &&& 0x20 = 0 → (Mode.ofBits (Psr.m (new 0xF80000DF))).isSome = true →
          exec (form false) s = .next (s.flagged (new 0xF80000DF))) ∧
        (s.privileged = true → v &&& 0x20 = 0 → Mode.ofBits (Psr.m (new 0xF80000DF)) = none →
          exec (form false) s = .refused .illegalMode) ∧
        (s.privileged = true → v &&& 0x20 ≠ 0 → exec (form false) s = .refused .msrTBit) ∧
        (s.privileged = false → exec (form false) s = .next (s.flagged (new 0xF8000000))) ∧
        (∀ k, s.mode.spsrIndex = some k → exec (form true) s =
          .next { s with spsr := s.spsr.set k (replaceBits s.spsr[k] v (fieldBits mask &&& 0xF80000FF)), pc := s.nextPc }) ∧
        (s.mode = .usr ∨ s.mode = .sys → exec (form true) s = .refused .noSpsr)) := by
  intro new
  refine ⟨fun zero => ?_, fun some set => (runs r).trans (msr_reserved r some set), fun some clear => ?_⟩
  · rw [runs, msr, if_pos zero]
    rfl
  · have cpsr : exec (form false) s = msrCpsr mask v s := (runs false).trans (msr_eq false some clear)
    have spsr : exec (form true) s = msrSpsr mask v s := (runs true).trans (msr_eq true some clear)
    refine ⟨fun privileged noT legal => ?_, fun privileged noT illegal => ?_, fun privileged setsT => ?_,
      fun user => cpsr.trans (msrCpsr_user user), fun k index => spsr.trans (msrSpsr_index index), fun unbanked => ?_⟩
    · rw [cpsr, msrCpsr_privileged privileged, if_neg (not_not.mpr noT), if_pos legal]
    · rw [cpsr, msrCpsr_privileged privileged, if_neg (not_not.mpr noT), illegal]
      rfl
    · rw [cpsr, msrCpsr_privileged privileged, if_pos setsT]
    · rw [spsr, msrSpsr, State.spsr?_eq_none unbanked]

end

/-- Settles O16: both operand forms run one operation. -/
theorem statusRegisterWrite : Obligations.StatusRegisterWrite := by
  unfold Obligations.StatusRegisterWrite
  intro c r mask rm rot imm s cond
  refine ⟨fun rm15 => ?_, fun rm15 form member => ?_⟩
  · rw [execMsrReg_eq r mask rm cond, rm15]
    rfl
  · simp only [List.mem_cons, List.not_mem_nil, or_false] at member
    obtain rfl | rfl := member
    · exact msr_result r fun r => by rw [execMsrReg_eq r mask rm cond, usesR15_one rm15, refuseIf_false]
    · exact msr_result r fun r => execMsrImm_eq r mask rot imm cond

end Sys2Proof.Machine
end

section
/-! SUPPORT. Proofs: the Thumb branches, and the two halves of BL and BLX (R300 to R304). -/

namespace Sys2Proof.Machine

variable {s : State}

/-! ## The suffix (R303, R304) -/

/-- Where a suffix starts from (R117): the exact sum of its own first half, or the address in R14. -/
def State.suffixBase (s : State) : Int :=
  if s.ownPrefix ∈ s.prefixes then s.pc.toNat + 2 + (s.reg 14 - (s.pc + 2)).toInt else (s.reg 14).toNat

theorem jumpTo_blTarget (offset : Nat) (k : Word → State) :
    let y := s.suffixBase + offset
    jumpTo (blTarget offset s) k =
      if 0 ≤ y ∧ y < 4294967296 then .next (k (BitVec.ofInt 32 y)) else .refused .addressWrap := by
  intro y
  by_cases noted : s.ownPrefix ∈ s.prefixes
  · rw [blTarget, if_pos noted]
    refine jumpTo_relativeTarget k ?_
    simp only [y, State.suffixBase, if_pos noted]
    ring
  · rw [blTarget, if_neg noted]
    refine jumpTo_relativeTarget k ?_
    simp only [y, State.suffixBase, if_neg noted]

/-- The state that a BL suffix jumps from: the return address in R14 and the note of its first half used up. -/
def State.suffixed (s : State) : State :=
  { s with regs := s.withReg 14 ((s.pc + 2) ||| 1), prefixes := s.prefixes.erase s.ownPrefix }

theorem State.nextPc_thumb (thumb : s.thumb = true) : s.nextPc = s.pc + 2 := by
  rw [State.nextPc, State.len, thumb]
  rfl

theorem dropPrefix_thumbLink (thumb : s.thumb = true) : s.dropPrefix.thumbLink = s.suffixed := by
  rw [State.thumbLink, State.dropPrefix_nextPc, State.nextPc_thumb thumb]
  rfl

theorem exec_tBlSuffix (imm : BitVec 11) (thumb : s.thumb = true) :
    let y := s.suffixBase + 2 * imm.toNat
    exec (.tBlSuffix imm) s = if 0 ≤ y ∧ y < 4294967296 then
      .next (s.suffixed.jump (BitVec.ofInt 32 y &&& 0xFFFFFFFE)) else .refused .addressWrap := by
  intro y
  have target : y = s.suffixBase + (2 * imm.toNat : Nat) := by simp [y]
  change jumpTo (blTarget (2 * imm.toNat) s) _ = _
  rw [jumpTo_blTarget, dropPrefix_thumbLink thumb, ← target]
  rfl

theorem exec_tBlxSuffix (imm : BitVec 10) (thumb : s.thumb = true) :
    let y := s.suffixBase + 4 * imm.toNat
    exec (.tBlxSuffix imm) s = if 0 ≤ y ∧ y < 4294967296 then
      .next ({ s.suffixed with cpsr := Psr.setT s.cpsr false }.jump (BitVec.ofInt 32 y &&& 0xFFFFFFFC))
      else .refused .addressWrap := by
  intro y
  have target : y = s.suffixBase + (4 * imm.toNat : Nat) := by simp [y]
  change jumpTo (blTarget (4 * imm.toNat) s) _ = _
  rw [jumpTo_blTarget, dropPrefix_thumbLink thumb, ← target]
  rfl

/-! ## The first half (R302) -/

/-- The part of the offset that a first half adds, as a word. -/
theorem highOffset_eq (imm : BitVec 11) : imm.signExtend 32 <<< 12 = BitVec.ofInt 32 (4096 * imm.toInt) := by
  rw [BitVec.shiftLeft_eq_mul_twoPow, BitVec.signExtend, mul_comm 4096, BitVec.ofInt_mul]
  rfl

/-- The state after a first half that leaves `high` in R14. -/
def State.prefixed (s : State) (high : Word) : State :=
  { s.wrote 14 high with prefixes := ⟨s.pc + 2, high⟩ :: s.prefixes }

theorem State.readPc_thumb (thumb : s.thumb = true) : s.readPc = s.pc + 4 := by
  rw [State.readPc, thumb]
  rfl

theorem exec_tBlPrefix (imm : BitVec 11) (thumb : s.thumb = true) :
    exec (.tBlPrefix imm) s = .next (s.prefixed (s.pc + 4 + BitVec.ofInt 32 (4096 * imm.toInt))) := by
  change execTBlPrefix imm s = _
  rw [execTBlPrefix, highOffset_eq, State.readPc_thumb thumb, State.advance, State.notePrefix_nextPc,
    State.setReg_nextPc, State.nextPc_thumb thumb, State.notePrefix, State.setReg_nextPc, State.nextPc_thumb thumb,
    State.prefixed, State.wrote, State.nextPc_thumb thumb]
  rfl

theorem linkReg_written (s : State) (v : Word) : (s.wrote 14 v).reg 14 = v := by
  have written := s.bankReg_setBankReg s.mode (a := 14) (b := 14) v (by decide) (by decide)
  rwa [if_pos rfl] at written

theorem prefixed_reg (s : State) (v : Word) : (s.prefixed v).reg 14 = v := linkReg_written s v

/-- The instruction set state selects no bank of R14. -/
theorem linkReg_setT (s : State) (b : Bool) : (s.setCpsr (Psr.setT s.cpsr b)).reg 14 = s.reg 14 := by
  have mode : (s.setCpsr (Psr.setT s.cpsr b)).mode = s.mode := by simp [State.mode]
  rw [State.reg_bank (by decide), State.reg_bank (by decide), mode]
  rfl

section

variable {high : Word} (thumb : s.thumb = true)
include thumb

theorem prefixed_pc : (s.prefixed high).pc = s.pc + 2 := State.nextPc_thumb thumb

theorem prefixed_ownPrefix : (s.prefixed high).ownPrefix = ⟨s.pc + 2, high⟩ := by
  rw [State.ownPrefix, prefixed_pc thumb]
  exact congrArg (BlPrefix.mk _) (linkReg_written s high)

/-- The suffix after a first half starts from the sum that the first half stands for. -/
theorem prefixed_suffixBase (inside : s.pc.toNat + 2 < 4294967296) (imm : BitVec 11) :
    (s.prefixed (s.pc + 4 + BitVec.ofInt 32 (4096 * imm.toInt))).suffixBase = s.pc.toNat + 4 + 4096 * imm.toInt := by
  have low := BitVec.le_toInt imm
  have high := BitVec.toInt_lt (x := imm)
  have back (d : Word) : s.pc + 4 + d - (s.pc + 2 + 2) = d := by bv_omega
  have offset : (BitVec.ofInt 32 (4096 * imm.toInt)).toInt = 4096 * imm.toInt := by
    rw [BitVec.toInt_ofInt, Int.bmod_eq_of_le] <;> omega
  have next : (s.pc + 2).toNat = s.pc.toNat + 2 := by bv_omega
  rw [State.suffixBase, if_pos (by rw [prefixed_ownPrefix thumb]; exact List.mem_cons_self), prefixed_pc thumb,
    prefixed_reg, back, offset, next]
  push_cast
  ring

theorem prefixed_suffixed_prefixes : (s.prefixed high).suffixed.prefixes = s.prefixes := by
  change List.erase (_ :: _) _ = _
  rw [prefixed_ownPrefix thumb, List.erase_cons_head]

theorem prefixed_suffixed_reg : (s.prefixed high).suffixed.reg 14 = (s.pc + 4) ||| 1 := by
  have twice : s.pc + 2 + 2 = s.pc + 4 := by bv_omega
  rw [← twice, ← prefixed_pc (high := high) thumb]
  exact linkReg_written _ _

end

/-- Settles O38: the branches seek one target; a suffix that follows its first half finds the note of it. -/
theorem thumbBranchResult : Obligations.ThumbBranchResult := by
  unfold Obligations.ThumbBranchResult
  intro c i8 i11 i10 s near far note linked
  have nearTarget : near = s.pc.toNat + thumbOffset i8 := by simp only [near, thumbOffset]; ring
  have farTarget : far = s.pc.toNat + thumbOffset i11 := by simp only [far, thumbOffset]; ring
  refine ⟨fun cond => ?_, jumpTo_relativeTarget _ farTarget, fun thumb => ?_⟩
  · change execTBCond c i8 s = _
    rw [execTBCond, onCond_pass _ cond]
    exact jumpTo_relativeTarget _ nearTarget
  intro high noted back base bl blx
  refine ⟨exec_tBlPrefix i11 thumb, exec_tBlSuffix i11 thumb, exec_tBlxSuffix i10 thumb, ?_⟩
  intro low inside pair exchange
  have stays : noted.thumb = true := thumb
  have start : noted.suffixBase = s.pc.toNat + 4 + 4096 * i11.toInt := prefixed_suffixBase thumb inside i11
  constructor
  · rw [exec_tBlSuffix low stays, start]
    split
    · exact ⟨_, rfl, rfl, prefixed_suffixed_reg thumb, rfl, prefixed_suffixed_prefixes thumb⟩
    · rfl
  · rw [exec_tBlxSuffix i10 stays, start]
    split
    · exact ⟨_, rfl, rfl, (linkReg_setT noted.suffixed false).trans (prefixed_suffixed_reg thumb), rfl,
        prefixed_suffixed_prefixes thumb⟩
    · rfl

end Sys2Proof.Machine
end

section
/-! SUPPORT. Proofs: what an operation keeps of the registers and the system, said once, for the rules that hold of every
instruction (R22 to R24, R26, R38, R312, R327). -/

namespace Sys2Proof.Machine

variable {s t u : State}

/-! ## Addresses aligned for an instruction set (R24) -/

/-- The address is a multiple of the length of an instruction. -/
def AlignedFor (thumb : Bool) (a : Word) : Prop := a.toNat % (if thumb then 2 else 4) = 0

theorem alignedFor_of_mod {a : Word} (b : Bool) (h : a.toNat % 4 = 0) : AlignedFor b a := by
  cases b
  · exact h
  · show a.toNat % 2 = 0
    omega

theorem pcAligned_iff : s.pcAligned ↔ (s.dbg.inDebug = false → AlignedFor s.thumb s.pc) := by
  refine forall_congr' fun _ => ?_
  cases thumb : s.thumb
  · rw [if_neg Bool.false_ne_true]
    exact low2_eq_zero_iff _
  · rw [if_pos rfl, getLsbD_zero_eq, decide_eq_false_iff_not]
    show _ ↔ s.pc.toNat % 2 = 0
    omega

/-- A return goes to an address that is aligned for the state it returns to (R325). -/
theorem alignedFor_returnTarget (b : Bool) (v : Word) : AlignedFor b (returnTarget b v) := by
  cases b
  · show (alignTo .word v).toNat % 4 = 0
    rw [toNat_alignWord]
    omega
  · show (alignTo .half v).toNat % 2 = 0
    rw [toNat_alignHalf]
    omega

theorem alignedFor_nextPc (h : AlignedFor s.thumb s.pc) : AlignedFor s.thumb s.nextPc := State.nextPc_mod h

/-- Every vector is a word address (R309, R310). -/
theorem vector_mod (s : State) (x : Exc) : (s.vectorBase + x.offset).toNat % 4 = 0 := by
  unfold State.vectorBase
  cases x <;> cases s.cp15.v <;> decide

/-! ## The registers of other modes (R22) -/

/-- User mode has left alone the registers that it has no name for. -/
def HiddenKept (s t : State) : Prop := s.mode = .usr → ∀ k : Fin 30, privilegedReg k = true → t.regs[k] = s.regs[k]

/-- No name of User mode, R15 apart, selects one of them. -/
theorem physIndex_usr {r : Reg} (r15 : r ≠ 15) : privilegedReg (physIndex .usr r) = false := by
  revert r
  decide

theorem HiddenKept.of_regs (h : t.regs = s.regs) : HiddenKept s t := fun _ k _ => by rw [h]

theorem HiddenKept.setBankReg {m : Mode} {r : Reg} (own : s.mode = .usr → m = .usr) (r15 : r ≠ 15) (v : Word) :
    HiddenKept s (s.setBankReg m r v) := by
  intro user k hidden
  have other : (physIndex m r).val ≠ k.val := by
    intro same
    rw [own user] at same
    rw [← Fin.ext same, physIndex_usr r15] at hidden
    cases hidden
  simp only [State.setBankReg_regs, Fin.getElem_fin]
  exact Vector.getElem_set_ne _ _ other

/-! ## An operation within an instruction -/

/-- An operation that, up to the outcome of its accesses, changes only memory, outputs, general registers and what serves the
debugger and the coprocessors. -/
structure Calm (s t : State) : Prop where
  cpsr : t.cpsr = s.cpsr
  pc : t.pc = s.pc
  spsr : t.spsr = s.spsr
  cp15 : t.cp15 = s.cp15
  fetch : t.fetch = s.fetch
  inDebug : t.dbg.inDebug = s.dbg.inDebug
  hidden : HiddenKept s t

/-- An operation that has not aborted leaves the communications channel to privileged modes too. -/
structure Settled (s t : State) : Prop extends Calm s t where
  dcc : s.mode = .usr → t.dcc = s.dcc

theorem Calm.mode (h : Calm s t) : t.mode = s.mode := by rw [State.mode, h.cpsr, State.mode]

theorem Calm.thumb (h : Calm s t) : t.thumb = s.thumb := by rw [State.thumb, h.cpsr, State.thumb]

theorem Calm.nextPc (h : Calm s t) : t.nextPc = s.nextPc := by
  rw [State.nextPc, State.len, h.thumb, h.pc, State.nextPc, State.len]

theorem Calm.refl (s : State) : Calm s s := ⟨rfl, rfl, rfl, rfl, rfl, rfl, .of_regs rfl⟩

theorem Settled.refl (s : State) : Settled s s := ⟨.refl s, fun _ => rfl⟩

theorem HiddenKept.trans (h : HiddenKept s t) (k : HiddenKept t u) (mode : t.mode = s.mode) : HiddenKept s u :=
  fun user r hidden => (k (mode.trans user) r hidden).trans (h user r hidden)

theorem Calm.trans (h : Calm s t) (k : Calm t u) : Calm s u :=
  ⟨k.cpsr.trans h.cpsr, k.pc.trans h.pc, k.spsr.trans h.spsr, k.cp15.trans h.cp15, k.fetch.trans h.fetch,
    k.inDebug.trans h.inDebug, h.hidden.trans k.hidden h.mode⟩

theorem Settled.trans (h : Settled s t) (k : Settled t u) : Settled s u :=
  ⟨h.toCalm.trans k.toCalm, fun user => (k.dcc (h.mode.trans user)).trans (h.dcc user)⟩

/-- Two states with the same registers and the same system. -/
def SameCore (s t : State) : Prop :=
  t.cpsr = s.cpsr ∧ t.pc = s.pc ∧ t.spsr = s.spsr ∧ t.cp15 = s.cp15 ∧ t.fetch = s.fetch ∧
    t.dbg.inDebug = s.dbg.inDebug ∧ t.regs = s.regs

@[simp] theorem sameCore_iff : SameCore s t ↔
    t.cpsr = s.cpsr ∧ t.pc = s.pc ∧ t.spsr = s.spsr ∧ t.cp15 = s.cp15 ∧ t.fetch = s.fetch ∧
      t.dbg.inDebug = s.dbg.inDebug ∧ t.regs = s.regs := .rfl

theorem Calm.of_same (h : SameCore s t) : Calm s t := by
  obtain ⟨cpsr, pc, spsr, cp15, fetch, inDebug, regs⟩ := h
  exact ⟨cpsr, pc, spsr, cp15, fetch, inDebug, .of_regs regs⟩

theorem Calm.same (h : Calm s t) (k : SameCore t u) : Calm s u := h.trans (.of_same k)

theorem Settled.of_same (h : SameCore s t ∧ t.dcc = s.dcc) : Settled s t := ⟨.of_same h.1, fun _ => h.2⟩

theorem Settled.same (h : Settled s t) (k : SameCore t u ∧ u.dcc = t.dcc) : Settled s u := h.trans (.of_same k)

theorem MemoryOnly.settled (h : MemoryOnly s t) : Settled s t := by
  refine .of_same ⟨⟨h.cpsr, h.pc, ?_, ?_, h.fetch, ?_, h.regs⟩, ?_⟩ <;> rw [h.core]

theorem LateStored.calm (h : LateStored s t) : Calm s t := by
  refine .of_same ⟨?_, ?_, ?_, ?_, ?_, ?_, ?_⟩ <;> rw [h.core]

theorem Settled.noteCycle (s : State) (x : Seen) : Settled s (s.noteCycle x) := (MemoryOnly.noteCycle s x).settled

theorem Settled.betweenAccesses (s : State) : Settled s s.betweenAccesses :=
  Settled.trans (.of_same (by simp)) (MemoryOnly.betweenAccesses s).settled

theorem Settled.noteWatch (s : State) : Settled s s.noteWatch := by
  unfold State.noteWatch
  split <;> exact .of_same (by simp)

theorem Settled.setBankReg {m : Mode} {r : Reg} (own : s.mode = .usr → m = .usr) (r15 : r ≠ 15) (v : Word) :
    Settled s (s.setBankReg m r v) :=
  ⟨⟨rfl, rfl, rfl, rfl, rfl, rfl, .setBankReg own r15 v⟩, fun _ => rfl⟩

theorem Settled.setReg (h : Settled s t) {r : Reg} (r15 : r ≠ 15) (v : Word) : Settled s (t.setReg r v) :=
  h.trans (.setBankReg id r15 v)

/-- A base written back, or none. -/
theorem Settled.setReg? (h : Settled s t) {r : Reg} {b : Option Word} (r15 : b.isSome = true → r ≠ 15) :
    Settled s (t.setReg? r b) := by
  cases b with
  | none => exact h
  | some v => exact h.setReg (r15 rfl) v

/-- What a privileged mode may change of the communications channel. -/
theorem Settled.withDcc (privileged : s.privileged = true) (d : Dcc) : Settled s { s with dcc := d } :=
  ⟨.of_same (by simp), fun user => absurd privileged (by simp [State.privileged, user])⟩

/-! ## An access -/

/-- Where an access completes it has changed no register and nothing of the system, where it aborts no more than the
communications channel. -/
def Access.Settles {α : Type} (s : State) : Access α → Prop
  | .ok _ t => Settled s t
  | .abort t => Calm s t
  | .stop _ => True

theorem Access.Settles.trans {α : Type} {x : Access α} (h : Settled s t) (k : x.Settles t) : x.Settles s := by
  cases x with
  | ok a u => exact Settled.trans h k
  | abort u => exact h.toCalm.trans k
  | stop y => trivial

theorem Access.Settles.bind {α β : Type} {x : Access α} {k : α → State → Access β} (h : x.Settles s)
    (hk : ∀ a u, (k a u).Settles u) : (x.bind k).Settles s := by
  cases x with
  | ok a u => exact (hk a u).trans h
  | abort u => exact h
  | stop y => trivial

theorem noteRead_settles (h : Settled s t) (x : Seen) (v : Word) : (noteRead x v t).Settles s := by
  have noted := h.trans (.noteCycle t x)
  unfold noteRead
  simp only
  split
  · exact noted
  · trivial
  · split
    · exact noted.toCalm.same (by simp)
    · exact noted.trans (.noteWatch _)

theorem noteWrite_settles (h : Settled s t) (x : Seen) : (noteWrite x s t).Settles s := by
  have noted := h.trans (.noteCycle t x)
  unfold noteWrite
  simp only
  split
  · exact noted
  · trivial
  · split
    · split
      · exact noted.toCalm.same (by simp)
      · exact Calm.of_same (by simp)
    · exact noted.trans (.noteWatch _)

theorem memRead_settles (force : Bool) (size : Size) (addr : Word) (s : State) :
    (memRead force size addr s).Settles s := by
  rw [memRead_eq]
  split
  · exact Calm.refl s
  · split
    next read => exact noteRead_settles (routeRead_readOnly (.inl read)).settled _ _
    next read => exact (routeRead_readOnly (v := 0) (.inr read)).settled.toCalm.trans (noteAbort_lateStored _ _).calm
    · trivial

theorem memWrite_settles (force swap seq : Bool) (size : Size) (addr v : Word) (s : State) :
    (memWrite force swap seq size addr v s).Settles s := by
  unfold memWrite
  split
  · exact Calm.refl s
  · simp only
    split
    next write => exact noteWrite_settles (routeWrite_memoryOnly (.inl write)).settled _
    next write => exact (routeWrite_memoryOnly (.inr write)).settled.toCalm.trans (noteAbort_lateStored _ _).calm
    · trivial

theorem readWords_settles (as : List Word) (s : State) : (readWords as s).Settles s := by
  induction as generalizing s with
  | nil => exact Settled.refl s
  | cons a as ih =>
    refine (memRead_settles false .word a s).bind fun v u => Access.Settles.bind ?_ fun vs w => Settled.refl w
    split
    · exact ih u
    · exact (ih _).trans (.betweenAccesses u)

theorem writeWords_settles (seq : Bool) (l : List (Word × Word)) (s : State) : (writeWords seq l s).Settles s := by
  induction l generalizing seq s with
  | nil => exact Settled.refl s
  | cons x rest ih =>
    have write := memWrite_settles false false seq .word x.1 x.2 s
    unfold writeWords
    split
    next u eq =>
      rw [eq] at write
      refine Access.Settles.trans write ?_
      split
      · exact ih true u
      · exact (ih true _).trans (.betweenAccesses u)
    next eq => rw [eq] at write; exact Calm.trans write (maybeStore_lateStored rest _).calm
    · trivial

/-- The registers of an aborted load become free. -/
theorem Settled.freeRegs {m : Mode} (own : s.mode = .usr → m = .usr) (keep : Option (Fin 30)) (l : List Reg) :
    Settled s (freeRegs m keep l s) := by
  induction l generalizing s with
  | nil => exact .refl s
  | cons r rs ih =>
    unfold Machine.freeRegs
    split
    · exact ih own
    next free =>
      have r15 : r ≠ 15 := fun pc => free (.inl pc)
      have taken : Settled s s.takeWord.2 := .of_same (by simp)
      have written := taken.trans (.setBankReg (r := r) (own ∘ taken.mode.symm.trans) r15 s.takeWord.1)
      exact written.trans (ih (own ∘ written.mode.symm.trans))

/-- The words of a load multiple, into the bank of a mode. -/
theorem Settled.setRegs {m : Mode} (own : s.mode = .usr → m = .usr) (l : List (Reg × Word)) :
    Settled s (setRegs m l s) := by
  induction l generalizing s with
  | nil => exact .refl s
  | cons x rest ih =>
    have step : Settled s (if x.1 = 15 then s else s.setBankReg m x.1 x.2) := by
      split
      · exact .refl s
      next r15 => exact .setBankReg own r15 x.2
    exact step.trans (ih (own ∘ step.mode.symm.trans))

end Sys2Proof.Machine
end

section
/-! SUPPORT. Proofs: how an instruction can end: what it keeps legal, and what it leaves alone in User mode (R22 to R24, R26, R38,
R76, R312, R327). -/

namespace Sys2Proof.Machine

variable {s t u : State} {th : Bool}

/-! ## What stays legal -/

/-- An operation keeps what must be legal in every state. `th` says that it is a Thumb instruction, which runs in Thumb state
only. -/
structure LegalKept (th : Bool) (s t : State) : Prop where
  status : s.statusLegal → t.statusLegal
  stream : (th = true → s.thumb = true) → s.streamLegal → t.streamLegal
  bist : s.bistApart → t.bistApart

theorem bistApart_of_cp15 (h : t.cp15 = s.cp15) (apart : s.bistApart) : t.bistApart := by
  intro side
  have engine : t.bist side = s.bist side := by cases side <;> simp only [State.bist, h]
  rw [engine, h]
  exact apart side

theorem LegalKept.refl (th : Bool) (s : State) : LegalKept th s s := ⟨id, fun _ => id, id⟩

theorem LegalKept.trans (h : LegalKept th s t) (k : LegalKept false t u) : LegalKept th s u :=
  ⟨k.status ∘ h.status, fun on => k.stream nofun ∘ h.stream on, k.bist ∘ h.bist⟩

theorem statusLegal_of_same (h : t.cpsr = s.cpsr) (k : t.spsr = s.spsr) (legal : s.statusLegal) : t.statusLegal := by
  unfold State.statusLegal
  rw [h, k]
  exact legal

theorem streamLegal_of_same (thumb : t.thumb = s.thumb) (pc : t.pc = s.pc) (fetch : t.fetch = s.fetch)
    (inDebug : t.dbg.inDebug = s.dbg.inDebug) (legal : s.streamLegal) : t.streamLegal := by
  unfold State.streamLegal State.pcAligned
  rw [thumb, pc, fetch, inDebug]
  exact legal

/-- An operation of the system control coprocessor: registers and fetch stream are untouched, an engine that runs stays apart
from its TCM. -/
structure SystemKept (s t : State) : Prop where
  cpsr : t.cpsr = s.cpsr
  pc : t.pc = s.pc
  spsr : t.spsr = s.spsr
  fetch : t.fetch = s.fetch
  inDebug : t.dbg.inDebug = s.dbg.inDebug
  bist : s.bistApart → t.bistApart

theorem SystemKept.thumb (h : SystemKept s t) : t.thumb = s.thumb := by rw [State.thumb, h.cpsr, State.thumb]

theorem SystemKept.legalKept (h : SystemKept s t) : LegalKept th s t :=
  ⟨statusLegal_of_same h.cpsr h.spsr, fun _ => streamLegal_of_same h.thumb h.pc h.fetch h.inDebug, h.bist⟩

theorem Calm.systemKept (h : Calm s t) : SystemKept s t :=
  ⟨h.cpsr, h.pc, h.spsr, h.fetch, h.inDebug, bistApart_of_cp15 h.cp15⟩

theorem SystemKept.trans (h : SystemKept s t) (k : SystemKept t u) : SystemKept s u :=
  ⟨k.cpsr.trans h.cpsr, k.pc.trans h.pc, k.spsr.trans h.spsr, k.fetch.trans h.fetch, k.inDebug.trans h.inDebug,
    k.bist ∘ h.bist⟩

/-- What comes before an instruction. -/
theorem LegalKept.after (h : SystemKept s t) (k : LegalKept th t u) : LegalKept th s u :=
  have kept : LegalKept th s t := h.legalKept
  ⟨k.status ∘ kept.status, fun on => k.stream (h.thumb ▸ on) ∘ kept.stream on, k.bist ∘ kept.bist⟩

/-- The instruction after it in sequence is in the same state. -/
theorem streamLegal_advance (legal : s.streamLegal) : s.advance.streamLegal :=
  ⟨pcAligned_iff.mpr fun running => alignedFor_nextPc (pcAligned_iff.mp legal.1 running), legal.2⟩

theorem SystemKept.advance (h : SystemKept s t) : LegalKept th s t.advance :=
  ⟨h.legalKept (th := th).status, fun on legal => streamLegal_advance (h.legalKept.stream on legal), h.bist⟩

/-! ## What User mode leaves alone -/

/-- An instruction that completed in User mode has left everything privileged as it was. -/
structure UserKept (s t : State) : Prop where
  mode : Psr.m t.cpsr = Psr.m s.cpsr
  i : Psr.i t.cpsr = Psr.i s.cpsr
  f : Psr.f t.cpsr = Psr.f s.cpsr
  spsr : t.spsr = s.spsr
  cp15 : t.cp15 = s.cp15
  dcc : t.dcc = s.dcc
  hidden : ∀ k : Fin 30, privilegedReg k = true → t.regs[k] = s.regs[k]

/-- What an exception entry writes of the privileged state: the CPSR, one SPSR and one R14. -/
structure Raised (x : Exc) (s t : State) : Prop where
  cpsr : t.cpsr = x.newCpsr s.cpsr
  spsr : ∃ m ∈ x.mode.spsrIndex, t.spsr = s.spsr.set m s.cpsr
  pc : t.pc = s.vectorBase + x.offset
  cp15 : t.cp15 = s.cp15
  nonseq : t.fetch.nonseq = true
  hidden : s.mode = .usr → ∀ k : Fin 30, privilegedReg k = true → k ≠ physIndex x.mode 14 → t.regs[k] = s.regs[k]

/-- The exceptions that an instruction can take (R312). -/
def instrExceptions : List Exc := [.undefined, .swi, .prefetchAbort, .dataAbort]

/-- An instruction that goes on from `s` has kept what must be legal, and in User mode it has left everything privileged alone or
taken an exception. -/
structure Ended (th : Bool) (s t : State) : Prop where
  legal : LegalKept th s t
  user : s.mode = .usr → UserKept s t ∨ ∃ x ∈ instrExceptions, Raised x s t

/-- Where a meaning goes on, it has ended in this way. -/
def Ends (th : Bool) (s : State) : Result → Prop
  | .next t => Ended th s t
  | .fault _ => True
  | .refused _ => True

/-! ## Operations before the end -/

theorem UserKept.trans (h : Settled s t) (user : s.mode = .usr) (k : UserKept t u) : UserKept s u := by
  refine ⟨?_, ?_, ?_, k.spsr.trans h.spsr, k.cp15.trans h.cp15, k.dcc.trans (h.dcc user),
    fun r hidden => (k.hidden r hidden).trans (h.hidden user r hidden)⟩
  · rw [k.mode, h.cpsr]
  · rw [k.i, h.cpsr]
  · rw [k.f, h.cpsr]

theorem Raised.trans {x : Exc} (h : Calm s t) (k : Raised x t u) : Raised x s u := by
  obtain ⟨m, index, spsr⟩ := k.spsr
  refine ⟨?_, ⟨m, index, ?_⟩, ?_, k.cp15.trans h.cp15, k.nonseq,
    fun user r hidden other => (k.hidden (h.mode.trans user) r hidden other).trans (h.hidden user r hidden)⟩
  · rw [k.cpsr, h.cpsr]
  · rw [spsr, h.spsr, h.cpsr]
  · rw [k.pc, State.vectorBase, h.cp15, State.vectorBase]

theorem Ended.trans (h : Settled s t) (k : Ended th t u) : Ended th s u := by
  refine ⟨k.legal.after h.systemKept, fun user => ?_⟩
  obtain same | ⟨x, member, raised⟩ := k.user (h.mode.trans user)
  · exact .inl (.trans h user same)
  · exact .inr ⟨x, member, raised.trans h.toCalm⟩

theorem Ends.trans {r : Result} (h : Settled s t) (k : Ends th t r) : Ends th s r := by
  cases r with
  | next u => exact Ended.trans h k
  | fault f => trivial
  | refused f => trivial

theorem ends_stop (th : Bool) (s : State) (x : Stop) : Ends th s x.result := by cases x <;> trivial

/-- A meaning that privileged modes alone have need only keep what must be legal. -/
theorem ended_privileged (privileged : s.privileged = true) (h : LegalKept th s t) : Ended th s t :=
  ⟨h, fun user => absurd privileged (by simp [State.privileged, user])⟩

/-! ## Completion -/

/-- The last write of an instruction to the status register: the mode, the masks and the reserved bits stay. -/
structure FlagsOnly (p q : Word) : Prop where
  m : Psr.m q = Psr.m p
  i : Psr.i q = Psr.i p
  f : Psr.f q = Psr.f p
  reserved : Psr.reserved q = Psr.reserved p

theorem FlagsOnly.refl (p : Word) : FlagsOnly p p := ⟨rfl, rfl, rfl, rfl⟩

/-- Registers may have been written and the status register gets its flags; only the fetch stream is still to be said. -/
theorem Settled.ended {p : Word} (h : Settled s t) (flags : FlagsOnly t.cpsr p) (cpsr : u.cpsr = p) (regs : u.regs = t.regs)
    (spsr : u.spsr = t.spsr) (cp15 : u.cp15 = t.cp15) (dcc : u.dcc = t.dcc)
    (stream : (th = true → s.thumb = true) → s.streamLegal → u.streamLegal) : Ended th s u := by
  refine ⟨⟨fun legal => ?_, stream, fun apart => ?_⟩, fun user => .inl ⟨?_, ?_, ?_, ?_, ?_, ?_, fun k hidden => ?_⟩⟩
  · obtain ⟨mode, reserved, saved⟩ := legal
    unfold State.statusLegal
    rw [cpsr, flags.m, flags.reserved, spsr, h.cpsr, h.spsr]
    exact ⟨mode, reserved, saved⟩
  · exact bistApart_of_cp15 (cp15.trans h.cp15) apart
  · rw [cpsr, flags.m, h.cpsr]
  · rw [cpsr, flags.i, h.cpsr]
  · rw [cpsr, flags.f, h.cpsr]
  · exact spsr.trans h.spsr
  · exact cp15.trans h.cp15
  · exact dcc.trans (h.dcc user)
  · rw [regs]
    exact h.hidden user k hidden

/-- The instruction goes on waiting: nothing of the stream has changed. -/
theorem Settled.waits (h : Settled s t) : Ended th s t :=
  h.ended (.refl _) rfl rfl rfl rfl rfl (h.systemKept.legalKept (th := th).stream)

/-- The instruction has written no R15. -/
theorem Settled.advances (h : Settled s t) : Ends th s (.next t.advance) :=
  h.ended (.refl _) rfl rfl rfl rfl rfl (h.systemKept.advance (th := th).stream)

/-- The instruction has written flags, and no R15. -/
theorem Settled.flags (h : Settled s t) {p : Word} (flags : FlagsOnly t.cpsr p) (thumb : Psr.t p = Psr.t t.cpsr) :
    Ends th s (.next (t.setCpsr p).advance) := by
  refine h.ended flags rfl rfl rfl rfl rfl fun on legal => streamLegal_advance ?_
  exact streamLegal_of_same (s := t) thumb rfl rfl rfl (h.systemKept.legalKept (th := th).stream on legal)

/-- A jump is to a nonsequential fetch. -/
theorem streamLegal_jump {a : Word} (aligned : AlignedFor t.thumb a) : (t.jump a).streamLegal :=
  ⟨pcAligned_iff.mpr fun _ => aligned, fun _ sequential => absurd sequential (by simp)⟩

/-- A branch within the instruction set state. -/
theorem Settled.jumps (h : Settled s t) {a : Word}
    (aligned : (th = true → s.thumb = true) → AlignedFor s.thumb s.pc → AlignedFor s.thumb a) :
    Ends th s (.next (t.jump a)) := by
  refine h.ended (.refl _) rfl rfl rfl rfl rfl fun on legal => ?_
  refine ⟨pcAligned_iff.mpr fun running => ?_, fun _ sequential => absurd sequential (by simp)⟩
  have thumb : (t.jump a).thumb = s.thumb := h.thumb
  rw [thumb]
  exact aligned on (pcAligned_iff.mp legal.1 (h.inDebug.symm.trans running))

/-- A branch that selects the instruction set state. -/
theorem Settled.exchanges (h : Settled s t) {b : Bool} {a : Word}
    (aligned : s.streamLegal → s.dbg.inDebug = false → AlignedFor b a) :
    Ends th s (.next ((t.setCpsr (Psr.setT t.cpsr b)).jump a)) := by
  refine h.ended (p := Psr.setT t.cpsr b) ⟨by simp, by simp, by simp, by simp⟩ rfl rfl rfl rfl rfl fun on legal => ?_
  refine ⟨pcAligned_iff.mpr fun running => ?_, fun _ sequential => absurd sequential (by simp)⟩
  have thumb : ((t.setCpsr (Psr.setT t.cpsr b)).jump a).thumb = b := by simp [State.thumb]
  rw [thumb]
  exact aligned legal (h.inDebug.symm.trans running)

/-! ## Exceptions -/

theorem Exc.spsrIndex_isSome (x : Exc) : ∃ m, x.mode.spsrIndex = some m := by cases x <;> exact ⟨_, rfl⟩

theorem raise_raised (s : State) (x : Exc) : Raised x s (s.raise x) := by
  obtain ⟨m, index⟩ := x.spsrIndex_isSome
  rw [State.raise_eq index]
  exact ⟨rfl, ⟨m, index, rfl⟩, rfl, rfl, rfl,
    fun _ k _ other => Vector.getElem_set_ne (physIndex x.mode 14).isLt k.isLt fun same => other (Fin.ext same.symm)⟩

theorem Raised.lateCancel {x : Exc} (h : Raised x s t) : Raised x s t.lateCancel :=
  ⟨h.cpsr, h.spsr, h.pc, h.cp15, h.nonseq, h.hidden⟩

theorem newCpsr_reserved (x : Exc) (p : Word) : Psr.reserved (x.newCpsr p) = Psr.reserved p := by
  have high := (Exc.newCpsr_fields x p).2.2.2.2
  have low (q : Word) : Psr.reserved q = (q.extractLsb' 8 24).setWidth 19 := by
    ext j hj
    simp [Psr.reserved]
    omega
  rw [low, low, high]

theorem reserved_set {v : Vector Word 5} {k : Fin 5} {p : Word} (old : ∀ j : Fin 5, Psr.reserved v[j] = 0)
    (new : Psr.reserved p = 0) (j : Fin 5) : Psr.reserved (v.set k p)[j] = 0 := by
  rw [Fin.getElem_fin, Vector.getElem_set]
  split
  · exact new
  · exact old j

/-- Every exception enters a legal mode, in ARM state at a word address. -/
theorem Raised.legalKept {x : Exc} (h : Raised x s t) : LegalKept th s t := by
  obtain ⟨m, index, spsr⟩ := h.spsr
  obtain ⟨mode, thumb, -⟩ := Exc.newCpsr_fields x s.cpsr
  refine ⟨fun legal => ⟨?_, ?_, fun k => ?_⟩, fun _ _ => ⟨pcAligned_iff.mpr fun _ => ?_, fun _ sequential => ?_⟩,
    bistApart_of_cp15 h.cp15⟩
  · rw [h.cpsr, mode, Mode.ofBits_bits]
    rfl
  · rw [h.cpsr, newCpsr_reserved]
    exact legal.2.1
  · rw [spsr]
    exact reserved_set legal.2.2 legal.2.1 k
  · rw [h.pc]
    exact alignedFor_of_mod _ (vector_mod s x)
  · rw [h.nonseq] at sequential
    cases sequential

theorem Raised.ended {x : Exc} (member : x ∈ instrExceptions) (h : Raised x s t) : Ended th s t :=
  ⟨h.legalKept, fun _ => .inr ⟨x, member, h⟩⟩

theorem ends_raise (th : Bool) (s : State) {x : Exc} (member : x ∈ instrExceptions) : Ends th s (.next (s.raise x)) :=
  (raise_raised s x).ended member

theorem ends_raiseUndefined (h : Calm s t) : Ends th s (raiseUndefined t) :=
  ((raise_raised t .undefined).trans h).ended (by decide)

theorem ends_raiseDataAbort (h : Calm s t) : Ends th s (raiseDataAbort t) :=
  ((raise_raised t .dataAbort).trans h).lateCancel.ended (by decide)

/-! ## Guards and accesses -/

theorem ends_refuseIf {b : Bool} {r : Refusal} {k : Result} (h : b = false → Ends th s k) : Ends th s (refuseIf b r k) := by
  cases b
  · exact h rfl
  · trivial

theorem ends_done (th : Bool) (s : State) : Ends th s s.done := (Settled.refl s).advances

theorem ends_onCond {c : Cond} {k : State → Result} (h : Ends th s (k s)) : Ends th s (onCond c k s) := by
  unfold onCond
  split
  · exact h
  · exact ends_done th s

/-- An access as an instruction's last one: its value, or the Data Abort. -/
theorem Access.Settles.finish {α : Type} {x : Access α} {k : α → State → Result} (h : x.Settles s)
    (hk : ∀ a u, Settled s u → Ends th s (k a u)) : Ends th s (x.finish k) := by
  cases x with
  | ok a u => exact hk a u h
  | abort u => exact ends_raiseDataAbort h
  | stop y => exact ends_stop th s y

theorem ne_pc_of_not_usesR15 {rs : List Reg} (h : usesR15 rs = false) : ∀ r ∈ rs, r ≠ 15 := by
  rintro r member rfl
  rw [usesR15_of_mem member] at h
  cases h

end Sys2Proof.Machine
end

section
/-! SUPPORT. Proofs: how every instruction ends that makes no access: data processing, multiplies, branches, status registers (R22 to
R24, R171, R188, R205 to R214, R325). -/

namespace Sys2Proof.Machine

variable {s t u : State} {th : Bool}

/-! ## Registers and flags -/

theorem Settled.linkNext (s : State) : Settled s s.linkNext := (Settled.refl s).setReg (by decide) _

theorem Settled.thumbLink (h : Settled s t) : Settled s t.thumbLink := h.setReg (by decide) _

theorem ends_setReg (h : Settled s t) {rd : Reg} (rd15 : rd ≠ 15) (v : Word) : Ends th s (.next (t.setReg rd v).advance) :=
  (h.setReg rd15 v).advances

theorem ends_setFlags (h : Settled s t) (o : AluOut) : Ends th s (.next (t.setFlags o).advance) :=
  h.flags ⟨by simp, by simp, by simp, by simp⟩ (by simp)

theorem ends_setNz (h : Settled s t) (r : Word) : Ends th s (.next (t.setNz r).advance) :=
  h.flags ⟨by simp, by simp, by simp, by simp⟩ (by simp)

theorem ends_setNz64 (h : Settled s t) (r : BitVec 64) : Ends th s (.next (t.setNz64 r).advance) :=
  h.flags ⟨by simp, by simp, by simp, by simp⟩ (by simp)

theorem ends_orQ (h : Settled s t) (q : Bool) : Ends th s (.next (t.orQ q).advance) :=
  h.flags ⟨by simp, by simp, by simp, by simp⟩ (by simp)

/-! ## Jumps (R24, R205, R210, R219, R325) -/

theorem ends_writePcArm (v : Word) (s : State) : Ends th s (writePcArm v s) := by
  rw [writePcArm_eq]
  split
  next aligned => exact (Settled.refl s).jumps fun _ _ => alignedFor_of_mod _ aligned
  · trivial

/-- A Thumb instruction clears bit 0 of its target. -/
theorem alignedFor_clearBit0 (on : true = true → s.thumb = true) (v : Word) : AlignedFor s.thumb (v &&& ~~~1) := by
  rw [on rfl]
  exact alignedFor_returnTarget true v

theorem ends_jumpExchange (h : Settled s t) (v : Word) : Ends th s (jumpExchange v t) := by
  unfold jumpExchange
  split
  · exact h.exchanges fun _ _ => alignedFor_returnTarget true v
  next bit0 =>
    split
    · trivial
    next bit1 =>
      rw [getLsbD_zero_eq, decide_eq_true_eq] at bit0
      rw [getLsbD_one_eq, decide_eq_true_eq] at bit1
      exact h.exchanges fun _ _ => alignedFor_of_mod _ (by omega)

theorem ends_loadPc (h : Settled s t) (v : Word) : Ends th s (loadPc v t) := by
  unfold loadPc
  split
  · refine h.jumps fun _ _ => ?_
    rw [← h.thumb]
    exact alignedFor_returnTarget _ v
  · exact ends_jumpExchange h v

/-- A branch by a whole number of instructions. -/
theorem ends_jumpRelative {offset : Int} (whole : (if th then 2 else 4) ∣ offset) (h : Settled s t) :
    Ends th s (jumpRelative offset t.jump s) := by
  unfold jumpRelative jumpTo
  split
  · trivial
  next v target =>
    have exact_ := relativeTarget_some target
    refine h.jumps fun on aligned => ?_
    unfold AlignedFor at aligned ⊢
    cases th
    · rw [if_neg Bool.false_ne_true] at whole
      split at aligned
      next thumb => rw [if_pos thumb]; omega
      next arm => rw [if_neg arm]; omega
    · rw [if_pos rfl] at whole
      rw [on rfl, if_pos rfl] at aligned ⊢
      omega

theorem branchOffset24_whole (imm : BitVec 24) : 4 ∣ branchOffset24 imm := by
  unfold branchOffset24
  omega

theorem thumbOffset_whole {n : Nat} (imm : BitVec n) : 2 ∣ thumbOffset imm := by
  unfold thumbOffset
  omega

/-- BLX (1) may go to the upper halfword of a word (R208). -/
theorem ends_blxImm (h : Bool) (imm : BitVec 24) (s : State) : Ends th s (execBlxImm h imm s) := by
  unfold execBlxImm jumpRelative jumpTo
  split
  · trivial
  next v target =>
    have exact_ := relativeTarget_some target
    have whole := branchOffset24_whole imm
    refine (Settled.linkNext s).exchanges fun legal running => ?_
    have aligned := pcAligned_iff.mp legal.1 running
    show v.toNat % 2 = 0
    unfold AlignedFor at aligned
    split at aligned <;> omega

theorem ends_exchangeTo (target : Word) (link : Bool) (s : State) : Ends th s (exchangeTo target link s) := by
  unfold exchangeTo
  split
  · exact ends_jumpExchange (.linkNext s) target
  · exact ends_jumpExchange (.refl s) target

theorem Settled.notePrefix (h : Settled s t) (v : Word) : Settled s (t.notePrefix v) := h.same (by simp)

theorem Settled.dropPrefix (s : State) : Settled s s.dropPrefix := .of_same (by simp)

theorem ends_tBlPrefix (imm : BitVec 11) (s : State) : Ends th s (execTBlPrefix imm s) :=
  (((Settled.refl s).setReg (by decide) _).notePrefix _).advances

theorem ends_tBlSuffix (imm : BitVec 11) (s : State) : Ends true s (execTBlSuffix imm s) := by
  unfold execTBlSuffix jumpTo
  split
  · trivial
  · exact (Settled.dropPrefix s).thumbLink.jumps fun on _ => alignedFor_clearBit0 on _

theorem ends_tBlxSuffix (imm : BitVec 10) (s : State) : Ends th s (execTBlxSuffix imm s) := by
  unfold execTBlxSuffix jumpTo
  split
  · trivial
  · exact (Settled.dropPrefix s).thumbLink.exchanges fun _ _ => alignedFor_returnTarget false _

/-- A mode with an SPSR is privileged (R22). -/
theorem privileged_of_spsr {p : Word} (saved : s.spsr? = some p) : s.privileged = true := by
  rw [State.privileged, decide_eq_true_eq]
  intro user
  rw [State.spsr?_eq_none (.inl user)] at saved
  cases saved

theorem reserved_of_spsr {p : Word} (saved : s.spsr? = some p) (legal : s.statusLegal) : Psr.reserved p = 0 := by
  obtain ⟨k, -, rfl⟩ := Option.map_eq_some_iff.mp saved
  exact legal.2.2 k

theorem ends_exceptionReturn (v : Word) (s : State) : Ends th s (exceptionReturn v s) := by
  unfold exceptionReturn
  split
  · trivial
  next p saved =>
    split
    next mode =>
      refine ended_privileged (privileged_of_spsr saved) ⟨fun legal => ⟨mode, reserved_of_spsr saved legal, legal.2.2⟩,
        fun _ _ => streamLegal_jump (alignedFor_returnTarget _ v), bistApart_of_cp15 rfl⟩
    · trivial

/-! ## Data processing (R171) -/

theorem ends_aluWrite (op : AluOp) (sf : Bool) (rn rd : Reg) (sh : ShifterOut) (s : State) :
    Ends th s (aluWrite op sf rn rd sh s) := by
  unfold aluWrite
  simp only
  split
  · split
    · exact ends_exceptionReturn _ s
    · exact ends_writePcArm _ s
  next rd15 =>
    have written := (Settled.refl s).setReg rd15 (op.compute (s.reg rn) sh.value sh.carry s.cpsr).result
    split
    · exact ends_setFlags written _
    · exact written.advances

theorem ends_aluTest (op : AluOp) (rn : Reg) (sh : ShifterOut) (s : State) : Ends th s (aluTest op rn sh s) :=
  ends_setFlags (.refl s) _

theorem ends_aluShift (op : AluOp) (c : Cond) (sf : Bool) (rn rd : Reg) (sh : BitVec 5) (k : ShiftKind) (rm : Reg)
    (s : State) : Ends th s (aluShift op c sf rn rd sh k rm s) := ends_onCond (ends_aluWrite ..)

theorem ends_aluRegShift (op : AluOp) (c : Cond) (sf : Bool) (rn rd rs : Reg) (k : ShiftKind) (rm : Reg) (s : State) :
    Ends th s (aluRegShift op c sf rn rd rs k rm s) := ends_onCond (ends_refuseIf fun _ => ends_aluWrite ..)

theorem ends_aluImm (op : AluOp) (c : Cond) (sf : Bool) (rn rd : Reg) (rot : BitVec 4) (imm : BitVec 8) (s : State) :
    Ends th s (aluImm op c sf rn rd rot imm s) := ends_onCond (ends_aluWrite ..)

theorem ends_movShift (op : AluOp) (c : Cond) (sf : Bool) (sbz rd : Reg) (sh : BitVec 5) (k : ShiftKind) (rm : Reg)
    (s : State) : Ends th s (movShift op c sf sbz rd sh k rm s) := ends_onCond (ends_refuseIf fun _ => ends_aluWrite ..)

theorem ends_movRegShift (op : AluOp) (c : Cond) (sf : Bool) (sbz rd rs : Reg) (k : ShiftKind) (rm : Reg) (s : State) :
    Ends th s (movRegShift op c sf sbz rd rs k rm s) :=
  ends_onCond (ends_refuseIf fun _ => ends_refuseIf fun _ => ends_aluWrite ..)

theorem ends_movImm (op : AluOp) (c : Cond) (sf : Bool) (sbz rd : Reg) (rot : BitVec 4) (imm : BitVec 8) (s : State) :
    Ends th s (movImm op c sf sbz rd rot imm s) := ends_onCond (ends_refuseIf fun _ => ends_aluWrite ..)

theorem ends_testShift (op : AluOp) (c : Cond) (rn sbz : Reg) (sh : BitVec 5) (k : ShiftKind) (rm : Reg) (s : State) :
    Ends th s (testShift op c rn sbz sh k rm s) := ends_onCond (ends_refuseIf fun _ => ends_aluTest ..)

theorem ends_testRegShift (op : AluOp) (c : Cond) (rn sbz rs : Reg) (k : ShiftKind) (rm : Reg) (s : State) :
    Ends th s (testRegShift op c rn sbz rs k rm s) :=
  ends_onCond (ends_refuseIf fun _ => ends_refuseIf fun _ => ends_aluTest ..)

theorem ends_testImm (op : AluOp) (c : Cond) (rn sbz : Reg) (rot : BitVec 4) (imm : BitVec 8) (s : State) :
    Ends th s (testImm op c rn sbz rot imm s) := ends_onCond (ends_refuseIf fun _ => ends_aluTest ..)

/-! ## Multiplies and saturating arithmetic (R188) -/

theorem ends_mulGuard {regs : List Reg} {clash : Bool} {k : Result} (h : (∀ r ∈ regs, r ≠ 15) → Ends th s k) :
    Ends th s (mulGuard regs clash k) :=
  ends_refuseIf fun noPc => ends_refuseIf fun _ => h (ne_pc_of_not_usesR15 noPc)

theorem ends_mulWrite (sf : Bool) {rd : Reg} (rd15 : rd ≠ 15) (r : Word) (s : State) : Ends th s (mulWrite sf rd r s) := by
  have written := (Settled.refl s).setReg rd15 r
  cases sf
  · exact written.advances
  · exact ends_setNz written r

theorem ends_mulWriteLong (sf : Bool) {rdHi rdLo : Reg} (hi15 : rdHi ≠ 15) (lo15 : rdLo ≠ 15) (p : BitVec 64) (s : State) :
    Ends th s (mulWriteLong sf rdHi rdLo p s) := by
  have written := ((Settled.refl s).setReg lo15 (p.extractLsb' 0 32)).setReg hi15 (p.extractLsb' 32 32)
  cases sf
  · exact written.advances
  · exact ends_setNz64 written p

theorem ends_mul32 (c : Cond) (sf : Bool) (rd : Reg) (acc : State → Word) (used : List Reg) (rs rm : Reg) (s : State) :
    Ends th s (mul32 c sf rd acc used rs rm s) :=
  ends_onCond (ends_mulGuard fun noPc => ends_mulWrite sf (noPc rd (by simp)) _ s)

theorem ends_mla (c : Cond) (sf : Bool) (rd rn rs rm : Reg) (s : State) : Ends th s (execMla c sf rd rn rs rm s) :=
  ends_mul32 c sf rd (fun s => s.reg rn) [rn] rs rm s

theorem ends_mul64 (signed acc : Bool) (c : Cond) (sf : Bool) (rdHi rdLo rs rm : Reg) (s : State) :
    Ends th s (mul64 signed acc c sf rdHi rdLo rs rm s) :=
  ends_onCond (ends_mulGuard fun noPc => ends_mulWriteLong sf (noPc rdHi (by simp)) (noPc rdLo (by simp)) _ s)

theorem ends_accumulateQ {rd : Reg} (rd15 : rd ≠ 15) (p acc : Word) (s : State) : Ends th s (accumulateQ rd p acc s) :=
  ends_orQ ((Settled.refl s).setReg rd15 _) _

theorem ends_saturating (double sub : Bool) (c : Cond) (rn rd sbz rm : Reg) (s : State) :
    Ends th s (saturating double sub c rn rd sbz rm s) :=
  ends_onCond (ends_refuseIf fun _ => ends_mulGuard fun noPc =>
    ends_orQ ((Settled.refl s).setReg (noPc rd (by simp)) _) _)

/-! ## Status registers (R211, R212) -/

theorem ends_mrs (c : Cond) (r : Bool) (sbo rd sbz1 sbz0 : Reg) (s : State) :
    Ends th s (execMrs c r sbo rd sbz1 sbz0 s) := by
  refine ends_onCond (ends_refuseIf fun _ => ends_refuseIf fun noPc => ?_)
  have rd15 : rd ≠ 15 := ne_pc_of_not_usesR15 noPc rd (by simp)
  split
  · split
    · trivial
    · exact ends_setReg (.refl s) rd15 _
  · exact ends_setReg (.refl s) rd15 _

/-- A field whose bits a write does not allow keeps its value. -/
theorem replaceBits_field {allowed : Word} (old new mask : Word) {lo len : Nat}
    (kept : ∀ j < len, allowed.getLsbD (lo + j) = false) :
    (replaceBits old new (mask &&& allowed)).extractLsb' lo len = old.extractLsb' lo len := by
  ext j hj
  simp only [BitVec.getElem_extractLsb', replaceBits, BitVec.getLsbD_or, BitVec.getLsbD_and, BitVec.getLsbD_not,
    kept j hj]
  by_cases inside : lo + j < 32
  · simp [inside]
  · simp [BitVec.getLsbD_of_ge old (lo + j) (by omega)]

/-- A bit that a write does not allow keeps its value. -/
theorem replaceBits_bit {allowed : Word} (old new mask : Word) {j : Nat} (inside : j < 32)
    (kept : allowed.getLsbD j = false) : (replaceBits old new (mask &&& allowed)).getLsbD j = old.getLsbD j := by
  simp only [replaceBits, BitVec.getLsbD_or, BitVec.getLsbD_and, BitVec.getLsbD_not, kept, inside]
  simp

/-- A write of the flags byte alone (R212). -/
theorem replaceBits_flagsOnly (old new mask : Word) : FlagsOnly old (replaceBits old new (mask &&& 0xF8000000)) :=
  ⟨replaceBits_field old new mask (by decide), replaceBits_bit old new mask (by decide) (by decide),
    replaceBits_bit old new mask (by decide) (by decide), replaceBits_field old new mask (by decide)⟩

theorem ends_msrCpsr (mask : BitVec 4) (v : Word) (s : State) : Ends th s (msrCpsr mask v s) := by
  have advances {p : Word} (same : Psr.t p = Psr.t s.cpsr) := setCpsr_advance_of_t same
  cases privileged : s.privileged
  · have thumb := replaceBits_t (allowed := 0xF8000000) s.cpsr v (fieldBits mask) (by decide)
    rw [msrCpsr_user privileged, ← advances thumb]
    exact (Settled.refl s).flags (replaceBits_flagsOnly ..) thumb
  · have thumb := replaceBits_t (allowed := 0xF80000DF) s.cpsr v (fieldBits mask) (by decide)
    have reserved : Psr.reserved (replaceBits s.cpsr v (fieldBits mask &&& 0xF80000DF)) = Psr.reserved s.cpsr :=
      replaceBits_field _ _ _ (by decide)
    rw [msrCpsr_privileged privileged]
    split
    · trivial
    · split
      next mode =>
        rw [← advances thumb]
        refine ended_privileged privileged ⟨fun legal => ⟨mode, reserved.trans legal.2.1, legal.2.2⟩,
          fun _ legal => streamLegal_advance (streamLegal_of_same (s := s) thumb rfl rfl rfl legal), bistApart_of_cp15 rfl⟩
      · trivial

theorem ends_msrSpsr (mask : BitVec 4) (v : Word) (s : State) : Ends th s (msrSpsr mask v s) := by
  cases index : s.mode.spsrIndex with
  | none =>
    have none : s.spsr? = none := by rw [State.spsr?, index]; rfl
    rw [msrSpsr, none]
    trivial
  | some k =>
    rw [msrSpsr_index index]
    have reserved (legal : s.statusLegal) :
        Psr.reserved (replaceBits s.spsr[k] v (fieldBits mask &&& 0xF80000FF)) = 0 :=
      (replaceBits_field _ _ _ (by decide)).trans (legal.2.2 k)
    exact ended_privileged (privileged_of_spsr (State.spsr?_of_index index))
      ⟨fun legal => ⟨legal.1, legal.2.1, reserved_set legal.2.2 (reserved legal)⟩, fun _ => streamLegal_advance,
        bistApart_of_cp15 rfl⟩

theorem ends_msr (r : Bool) (mask : BitVec 4) (v : Word) (s : State) : Ends th s (msr r mask v s) := by
  unfold msr
  split
  · exact ends_done th s
  · refine ends_refuseIf fun _ => ?_
    split
    · exact ends_msrSpsr mask v s
    · exact ends_msrCpsr mask v s

/-! ## Thumb data processing (R243 to R277) -/

theorem ends_thumbArith (rd : LoReg) (o : AluOut) (s : State) : Ends th s (thumbArith rd o s) :=
  ends_setFlags ((Settled.refl s).setReg (loReg_ne_pc rd) _) o

theorem ends_thumbCompare (o : AluOut) (s : State) : Ends th s (thumbCompare o s) := ends_setFlags (.refl s) o

theorem ends_thumbLogic (rd : LoReg) (r : Word) (s : State) : Ends th s (thumbLogic rd r s) :=
  ends_setNz ((Settled.refl s).setReg (loReg_ne_pc rd) _) r

theorem ends_thumbWriteAny (rd : Reg) (v : Word) (s : State) : Ends true s (thumbWriteAny rd v s) := by
  unfold thumbWriteAny
  split
  · exact (Settled.refl s).jumps fun on _ => alignedFor_clearBit0 on v
  next rd15 => exact ends_setReg (.refl s) rd15 v

end Sys2Proof.Machine
end

section
/-! SUPPORT. Proofs: how the loads, the stores and the coprocessor instructions end (R145 to R161, R215 to R241, R278 to R299). -/

namespace Sys2Proof.Machine

variable {s t u : State} {th : Bool}

/-! ## Loads and stores of one register -/

/-- An operation of addressing mode 2 or 3, behind the guard for its registers (R215, R216). -/
abbrev OpEnds (th noRd15 : Bool) (op : Reg → Reg → Addressed → State → Result) : Prop :=
  ∀ rn rd m s, (m.newBase.isSome = true → rn ≠ 15) → (noRd15 = true → rd ≠ 15) → Ends th s (op rn rd m s)

theorem ends_loadWord (user : Bool) : OpEnds th false (loadWord user) := by
  intro rn rd m s base _
  refine ends_refuseIf fun _ => (memRead_settles user .word m.address s).finish fun w u read => ?_
  have written := read.setReg? base
  simp only
  split
  · exact ends_loadPc written _
  next rd15 => exact (written.setReg rd15 _).advances

theorem ends_loadWordNoPc (user : Bool) : OpEnds th true (loadWord user) :=
  fun rn rd m s base _ => ends_loadWord user rn rd m s base nofun

theorem ends_loadNarrow (user : Bool) (size : Size) (ext : Word → Word) : OpEnds th true (loadNarrow user size ext) :=
  fun _ _ m s base rd15 => ends_refuseIf fun _ => (memRead_settles user size m.address s).finish fun _ _ read =>
    ((read.setReg? base).setReg (rd15 rfl) _).advances

theorem ends_storeOne (user : Bool) (size : Size) (noRd15 : Bool) : OpEnds th noRd15 (storeOne user size) :=
  fun _ _ m s base _ => (memWrite_settles user false false size m.address _ s).finish fun _ _ write =>
    (write.setReg? base).advances

theorem ends_storeHalf : OpEnds th true storeHalf :=
  fun rn rd m s base rd15 => ends_refuseIf fun _ => ends_storeOne false .half true rn rd m s base rd15

theorem ends_transferGuard {wb noRd15 : Bool} {rn rd : Reg} {rm : Option Reg} {k : Result}
    (h : (wb = true → rn ≠ 15) → (noRd15 = true → rd ≠ 15) → Ends th s k) :
    Ends th s (transferGuard wb rn rd rm noRd15 k) := by
  refine ends_refuseIf fun noPc => ends_refuseIf fun _ => h ?_ ?_
  · rintro rfl rfl
    simp at noPc
  · rintro rfl rfl
    simp at noPc

theorem addressMode2_newBase (x : Indexing) (u : Bool) (base offset : Word) :
    (addressMode2 x u base offset).newBase.isSome = writesBack x := by cases x <;> rfl

section

variable {op : Reg → Reg → Addressed → State → Result} {noRd15 : Bool}

theorem ends_mode2Imm (h : OpEnds th noRd15 op) (c : Cond) (x : Indexing) (u : Bool) (rn rd : Reg)
    (imm : BitVec 12) (s : State) : Ends th s (mode2Imm op noRd15 c x u rn rd imm s) :=
  ends_onCond (ends_transferGuard fun base => h _ _ _ _ (addressMode2_newBase x .. ▸ base))

theorem ends_mode2Reg (h : OpEnds th noRd15 op) (c : Cond) (x : Indexing) (u : Bool) (rn rd : Reg)
    (sh : BitVec 5) (k : ShiftKind) (rm : Reg) (s : State) : Ends th s (mode2Reg op noRd15 c x u rn rd sh k rm s) :=
  ends_onCond (ends_transferGuard fun base => h _ _ _ _ (addressMode2_newBase x .. ▸ base))

theorem ends_mode3 (h : OpEnds th true op) (p u w : Bool) (rn rd : Reg) (rm : Option Reg) (offset : Word) (s : State) :
    Ends th s (mode3 op p u w rn rd rm offset s) := by
  unfold mode3
  split
  · trivial
  next m mode => exact ends_transferGuard fun base => h _ _ _ _ (addressMode3_newBase mode ▸ base)

theorem ends_mode3Imm (h : OpEnds th true op) (c : Cond) (p u w : Bool) (rn rd : Reg) (imm : BitVec 8) (s : State) :
    Ends th s (mode3Imm op c p u w rn rd imm s) := ends_onCond (ends_mode3 h ..)

theorem ends_mode3Reg (h : OpEnds th true op) (c : Cond) (p u w : Bool) (rn rd sbz rm : Reg) (s : State) :
    Ends th s (mode3Reg op c p u w rn rd sbz rm s) := ends_onCond (ends_refuseIf fun _ => ends_mode3 h ..)

end

theorem Settled.takeWord (s : State) : Settled s s.takeWord.2 := .of_same (by simp)

theorem ends_thumbLoad (size : Size) (ext : Word → Word) (address : Word) (rd : LoReg) (s : State) :
    Ends th s (thumbLoad size ext address rd s) := by
  refine (memRead_settles false size address s).finish fun v u read => ?_
  split
  · exact ends_setReg (read.trans (.takeWord u)) (loReg_ne_pc rd) _
  · exact ends_setReg read (loReg_ne_pc rd) _

theorem ends_thumbStore (size : Size) (address : Word) (rd : LoReg) (s : State) :
    Ends th s (thumbStore size address rd s) := by
  unfold thumbStore
  split
  · exact Ends.trans (.takeWord s) ((memWrite_settles ..).finish fun _ _ write => write.advances)
  · exact (memWrite_settles ..).finish fun _ _ write => write.advances

/-! ## Doublewords and swaps (R229 to R232) -/

theorem ends_doubleGuard {wb : Bool} {rn rd : Reg} {address : Word} {abort ok : Result} (ha : Ends th s abort)
    (hk : rd + 1 ≠ 15 → Ends th s ok) : Ends th s (doubleGuard wb rn rd address s abort ok) := by
  refine ends_refuseIf fun _ => ends_refuseIf fun rd14 => ends_refuseIf fun _ => ?_
  have next : rd + 1 ≠ 15 := by
    rw [decide_eq_false_iff_not] at rd14
    bv_omega
  split
  · split
    · exact ha
    · trivial
  · exact hk next

theorem ends_loadDouble : OpEnds th true loadDouble := by
  intro rn rd m s base rd15
  have read := readWords_settles [m.address, m.address + 4] s
  have abort {t : State} (h : Calm s t) :
      Ends th s (raiseDataAbort (freeRegs s.mode (s.basePlace rn) [rd, rd + 1] t)) :=
    ends_raiseDataAbort (h.trans (Settled.freeRegs h.mode.symm.trans ..).toCalm)
  refine ends_doubleGuard (abort (.refl s)) fun next15 => ?_
  split
  next eq =>
    rw [eq] at read
    exact (Settled.setReg? (Settled.setReg (Settled.setReg read (rd15 rfl) _) next15 _) base).advances
  next eq => rw [eq] at read; exact abort (Settled.toCalm read)
  next eq => rw [eq] at read; exact abort read
  next x _ => exact ends_stop th s x

theorem ends_loadDoubleReg (rm : Reg) : OpEnds th true (loadDoubleReg rm) :=
  fun rn rd m s base rd15 => ends_refuseIf fun _ => ends_loadDouble rn rd m s base rd15

theorem Calm.withMemories (s t : State) : Calm s (s.withMemories t) := .of_same (by simp)

/-- Whatever becomes of the first word, the Data Abort follows. -/
theorem ends_strdAborted (a v : Word) (s0 s1 : State) (h : Calm s t) : Ends th s (strdAborted a v s0 s1 t) := by
  have choice : Calm s t.takeBool.2 := h.same (by simp)
  unfold strdAborted
  simp only
  split
  · exact ends_raiseDataAbort choice
  · split
    · exact ends_raiseDataAbort choice
    · exact ends_raiseDataAbort (choice.trans (.withMemories ..))
    · exact ends_raiseDataAbort choice

theorem ends_storeDouble : OpEnds th true storeDouble := by
  intro rn rd m s base rd15
  have first := memWrite_settles false false false .word m.address (s.reg rd) s
  refine ends_doubleGuard (ends_raiseDataAbort (.refl s)) fun _ => ?_
  split
  next x _ => exact ends_stop th s x
  next eq => rw [eq] at first; exact ends_raiseDataAbort (Calm.trans first (maybeStore_lateStored ..).calm)
  next s1 eq =>
    rw [eq] at first
    have between : Settled s s1.betweenAccesses := Settled.trans first (.betweenAccesses s1)
    have second := (memWrite_settles false false true .word (m.address + 4) (s.reg (rd + 1)) s1.betweenAccesses).trans between
    split
    next x _ => exact ends_stop th s x
    next eq => rw [eq] at second; exact ends_strdAborted _ _ _ _ second
    next eq => rw [eq] at second; exact (Settled.setReg? second base).advances

theorem ends_swap (size : Size) (c : Cond) (rn rd sbz rm : Reg) (s : State) : Ends th s (swap size c rn rd sbz rm s) :=
  ends_onCond (ends_refuseIf fun _ => ends_refuseIf fun noPc => ends_refuseIf fun _ =>
    (memRead_settles ..).finish fun _ _ read => Ends.trans read ((memWrite_settles ..).finish fun _ _ write =>
      ends_setReg write (ne_pc_of_not_usesR15 noPc rd (by simp)) _))

/-! ## Multiple transfers (R234 to R241) -/

theorem ends_loadMultiple {m : Mode} (own : s.mode = .usr → m = .usr) {rn : Reg} {start : Word} {regs : List Reg}
    {k : Word → State → Result} (hk : ∀ w u, Settled s u → Ends th s (k w u)) :
    Ends th s (loadMultiple m rn start regs s k) := by
  have read := readWords_settles (wordAddresses start regs.length) s
  unfold loadMultiple
  split
  next eq =>
    rw [eq] at read
    exact hk _ _ (Settled.trans read (.setRegs (own ∘ (Settled.toCalm read).mode.symm.trans) _))
  next eq =>
    rw [eq] at read
    exact ends_raiseDataAbort (Calm.trans read (Settled.freeRegs (own ∘ (Calm.mode read).symm.trans) ..).toCalm)
  next x _ => exact ends_stop th s x

theorem Settled.multipleWriteBack (h : Settled s t) (w u : Bool) {rn : Reg} (rn15 : rn ≠ 15) (base : Word) (n : Nat) :
    Settled s (multipleWriteBack w u rn base n t) := by
  unfold Machine.multipleWriteBack
  split
  · exact h.setReg rn15 _
  · exact h

theorem ends_multipleGuard {empty : Bool} {rn : Reg} {k : Result} (h : rn ≠ 15 → Ends th s k) :
    Ends th s (multipleGuard empty rn k) :=
  ends_refuseIf fun _ => ends_refuseIf fun rn15 => h (of_decide_eq_false rn15)

theorem ends_ldmList (p u w : Bool) (rn : Reg) (regs : List Reg) (s : State) : Ends th s (ldmList p u w rn regs s) := by
  refine ends_multipleGuard fun rn15 => ends_refuseIf fun _ => ends_loadMultiple id fun last t loaded => ?_
  have written := loaded.multipleWriteBack w u rn15 (s.reg rn) regs.length
  simp only
  split
  · exact ends_loadPc written _
  · exact written.advances

theorem ends_ldmReturn (c : Cond) (p u w : Bool) (rn : Reg) (list : BitVec 15) (s : State) :
    Ends th s (execLdmReturn c p u w rn list s) :=
  ends_onCond (ends_refuseIf fun _ => ends_multipleGuard fun rn15 => ends_refuseIf fun _ =>
    ends_loadMultiple id fun _ _ loaded => Ends.trans (loaded.multipleWriteBack _ _ rn15 _ _) (ends_exceptionReturn _ _))

theorem Settled.afterUserTransfer (h : Settled s t) : Settled s t.afterUserTransfer := h.same (by simp)

theorem ends_ldmUser (c : Cond) (p u w : Bool) (rn : Reg) (list : BitVec 15) (s : State) :
    Ends th s (execLdmUser c p u w rn list s) :=
  ends_onCond (ends_multipleGuard fun _ => ends_refuseIf fun _ => ends_loadMultiple (fun _ => rfl) fun _ _ loaded =>
    loaded.afterUserTransfer.advances)

theorem ends_storeMultiple {value : Reg → Word} {w : Bool} {rn : Reg} {start : Word} {regs : List Reg} {k : State → Result}
    (hk : ∀ u, Settled s u → Ends th s (k u)) : Ends th s (storeMultiple value w rn start regs s k) :=
  Access.Settles.finish ((writeWords_settles ..).trans (.takeWord s)) fun _ u write => hk u write

theorem ends_stmList (p u w : Bool) (rn : Reg) (regs : List Reg) (s : State) : Ends th s (stmList p u w rn regs s) :=
  ends_multipleGuard fun rn15 => ends_storeMultiple fun _ stored => (stored.multipleWriteBack w u rn15 _ _).advances

theorem ends_stmUser (c : Cond) (p u w : Bool) (rn : Reg) (list : BitVec 16) (s : State) :
    Ends th s (execStmUser c p u w rn list s) :=
  ends_onCond (ends_multipleGuard fun _ => ends_refuseIf fun _ => ends_storeMultiple fun _ stored =>
    stored.afterUserTransfer.advances)

/-! ## Coprocessor instructions (R145 to R161) -/

/-- However the handshake ends, no register and nothing of the system has changed; it completes only where its cycles can move a
word. -/
def Handshake.Settles (move : Transfer) (s : State) : Handshake → Prop
  | .done _ t => Settled s t ∧ ∃ k w u a v, move k w u = .ok a v
  | .wait _ t => Settled s t
  | .absent t => Calm s t
  | .abort t => Calm s t
  | .stop _ => True

theorem Handshake.Settles.trans {move : Transfer} {x : Handshake} (h : Settled s t) (k : x.Settles move t) :
    x.Settles move s := by
  cases x with
  | done ws u => exact ⟨h.trans k.1, k.2⟩
  | wait ws u => exact Settled.trans h k
  | absent u => exact h.toCalm.trans k
  | abort u => exact h.toCalm.trans k
  | stop y => trivial

/-- What each cycle moves is an access. -/
abbrev TransferSettles (move : Transfer) : Prop := ∀ k w s, (move k w s).Settles s

theorem Settled.setReplies (s : State) (n : Reg) (rs : List CpReply) : Settled s (s.setReplies n rs) := .of_same (by simp)

theorem handshakeCycles_settles (n : Reg) (limit : Nat) {move : Transfer} (h : TransferSettles move) (rs : List CpReply)
    (ws : List Word) (s : State) : (handshakeCycles n limit move rs ws s).Settles move s := by
  induction rs generalizing ws s with
  | nil => exact Calm.refl s
  | cons r rs ih =>
    have rest := Settled.setReplies s n rs
    have moved (w : Word) := (h ws.length w (s.setReplies n rs)).trans rest
    cases r with
    | absent => exact rest.toCalm
    | wait => exact rest
    | waitForever => exact Settled.refl s
    | last w =>
      unfold handshakeCycles
      have moved := moved w
      split
      next eq => rw [eq] at moved; exact ⟨moved, _, _, _, _, _, eq⟩
      next eq => rw [eq] at moved; exact moved
      · trivial
    | go w =>
      unfold handshakeCycles
      have moved := moved w
      split
      next eq =>
        rw [eq] at moved
        split
        · exact ⟨moved, _, _, _, _, _, eq⟩
        · exact (ih _ _).trans moved
      next eq => rw [eq] at moved; exact moved
      · trivial

theorem Settled.beginCp (n : Reg) (word : Word) (s : State) : Settled s (beginCp n word s).2 := by
  unfold Machine.beginCp
  split
  · split
    · exact .refl s
    · exact .of_same (by simp)
  · exact .of_same (by simp)

theorem Settled.setWaiting (h : Settled s t) (w : Option CpWait) : Settled s (t.setWaiting w) := h.same (by simp)

theorem ends_coprocessorInstr {n : Reg} {i : Instr} {limit : Nat} {move : Transfer} {k : List Word → State → Result}
    (h : TransferSettles move) (hk : (∃ k w u a v, move k w u = .ok a v) → ∀ ws u, Settled s u → Ends th s (k ws u)) :
    Ends th s (coprocessorInstr n i limit move k s) := by
  have ends := (handshakeCycles_settles n limit h ((beginCp n (Code.word (encode i)) s).2.cpReplies n)
    (beginCp n (Code.word (encode i)) s).1 _).trans (Settled.beginCp n (Code.word (encode i)) s)
  unfold coprocessorInstr
  simp only
  split
  next eq =>
    rw [eq] at ends
    obtain ⟨settled, moves⟩ := ends
    exact hk moves _ _ (settled.setWaiting none)
  next eq => rw [eq] at ends; exact (Settled.setWaiting ends _).waits
  next eq => rw [eq] at ends; exact ends_raiseUndefined (Calm.same ends (by simp))
  next eq => rw [eq] at ends; exact ends_raiseDataAbort (Calm.same ends (by simp))
  next x _ => exact ends_stop th s x

theorem takeCpdin_settles : TransferSettles takeCpdin := fun _ _ s => Settled.refl s

theorem unlessBad_settles (bad : Option Refusal) {move : Transfer} (h : TransferSettles move) :
    TransferSettles (unlessBad bad move) := by
  cases bad with
  | none => exact h
  | some r => exact fun _ _ _ => trivial

/-- A form that is UNPREDICTABLE never completes. -/
theorem none_of_unlessBad_moves {bad : Option Refusal} {move : Transfer}
    (moves : ∃ k w u a v, unlessBad bad move k w u = .ok a v) : bad = none := by
  obtain ⟨k, w, u, a, v, moved⟩ := moves
  cases bad with
  | none => rfl
  | some r => cases moved

theorem Settled.beforeWord (s : State) (k : Nat) : Settled s (s.beforeWord k) := by
  unfold State.beforeWord
  split
  · exact .refl s
  · exact .betweenAccesses s

theorem ends_coprocessorOperation (n : Reg) (i : Instr) (s : State) : Ends th s (coprocessorOperation n i s) :=
  ends_coprocessorInstr takeCpdin_settles fun _ _ _ ended => ended.advances

theorem Settled.sendCp (h : Settled s t) (n : Reg) (x : CpInput) : Settled s (t.sendCp n x) := h.same (by simp)

/-- Words given to a coprocessor change no register. -/
theorem Settled.sendAll (n : Reg) (value : Reg → Word) (rs : List Reg) (s : State) :
    Settled s (rs.foldl (fun t r => t.sendCp n (.data (value r))) s) := by
  induction rs generalizing s with
  | nil => exact .refl s
  | cons r rs ih => exact ((Settled.refl s).sendCp n (.data (value r))).trans (ih _)

theorem ends_moveToCoprocessor (n : Reg) (i : Instr) (rs : List Reg) (s : State) :
    Ends th s (moveToCoprocessor n i rs s) :=
  ends_coprocessorInstr (unlessBad_settles _ takeCpdin_settles) fun _ _ u ended =>
    (ended.trans (.sendAll n u.reg rs u)).advances

theorem ends_writeFromCoprocessor (h : Settled s t) (rd : Reg) (d : Word) : Ends th s (writeFromCoprocessor rd d t) := by
  unfold writeFromCoprocessor
  split
  · exact h.flags ⟨by simp, by simp, by simp, by simp⟩ (by simp)
  next rd15 => exact ends_setReg h rd15 d

theorem ends_moveFromCoprocessor (n : Reg) (i : Instr) (rd : Reg) (s : State) :
    Ends th s (moveFromCoprocessor n i rd s) :=
  ends_coprocessorInstr takeCpdin_settles fun _ _ _ ended => ends_writeFromCoprocessor ended rd _

theorem Settled.firstOfTwo (ws : List Word) (s : State) : Settled s (firstOfTwo ws s).2 := by
  unfold Machine.firstOfTwo
  split
  · exact .refl s
  · exact .takeWord s

theorem ends_moveTwoFromCoprocessor (n : Reg) (i : Instr) (rd rn : Reg) (s : State) :
    Ends th s (moveTwoFromCoprocessor n i rd rn s) := by
  unfold moveTwoFromCoprocessor
  refine ends_coprocessorInstr (unlessBad_settles _ takeCpdin_settles) fun moves ws u ended => ?_
  have good := none_of_unlessBad_moves moves
  cases named : usesR15 [rn, rd] with
  | true =>
    rw [named] at good
    cases good
  | false =>
    have noPc := ne_pc_of_not_usesR15 named
    exact (((ended.trans (.firstOfTwo ws u)).setReg (noPc rd (by simp)) _).setReg (noPc rn (by simp)) _).advances

/-- Write-back to R15 is UNPREDICTABLE (R155). -/
theorem ne_pc_of_badBase {m : Addressed} {rn : Reg} (good : badBase m rn = none) (base : m.newBase.isSome = true) :
    rn ≠ 15 := by
  rintro rfl
  simp [badBase, base, badR15] at good

theorem ends_loadCoprocessor (n : Reg) (i : Instr) (a : CpIndexing) (rn : Reg) (imm : BitVec 8) (s : State) :
    Ends th s (loadCoprocessor n i a rn imm s) := by
  refine ends_coprocessorInstr (unlessBad_settles _ fun k w u => ?_) fun moves _ _ ended =>
    (ended.setReg? (ne_pc_of_badBase (none_of_unlessBad_moves moves))).advances
  exact Access.Settles.trans (.beforeWord u k) ((memRead_settles ..).bind fun w t => (Settled.refl t).sendCp n (.data w))

theorem ends_storeCoprocessor (n : Reg) (i : Instr) (a : CpIndexing) (rn : Reg) (imm : BitVec 8) (s : State) :
    Ends th s (storeCoprocessor n i a rn imm s) := by
  refine ends_coprocessorInstr (unlessBad_settles _ fun k w u => ?_) fun moves _ _ ended =>
    (ended.setReg? (ne_pc_of_badBase (none_of_unlessBad_moves moves))).advances
  exact Access.Settles.trans (.beforeWord u k) ((memWrite_settles ..).bind fun _ t => Settled.refl t)

end Sys2Proof.Machine
end

section
/-! SUPPORT. Proofs: the BIST engines and the internal coprocessors: what their registers change, and how the accesses to them end
(R38, R123 to R143, R162 to R168, R338, R344 to R349). -/

namespace Sys2Proof.Machine

variable {s t u : State} {th : Bool}

/-! ## The engines (R38, R344) -/

/-- An engine next to its TCM, of which `on` is the functional enable. -/
def Bist.Apart (b : Bist) (on : Bool) : Prop := (b.enable = true → on = false) ∧ (b.running = true → b.enable = true)

/-- Where an operation that may stop does not, registers and stream are untouched and the engines stay apart. -/
def Checked.KeepsSystem (s : State) : Checked → Prop
  | .ok t => SystemKept s t
  | .error _ => True

theorem SystemKept.refl (s : State) : SystemKept s s := ⟨rfl, rfl, rfl, rfl, rfl, id⟩

theorem Checked.KeepsSystem.trans {x : Checked} (h : SystemKept s t) (k : x.KeepsSystem t) : x.KeepsSystem s := by
  cases x with
  | ok u => exact SystemKept.trans h k
  | error y => trivial

theorem Checked.KeepsSystem.bind {x : Checked} {k : State → Checked} (h : x.KeepsSystem s)
    (hk : ∀ u, (k u).KeepsSystem u) : Checked.KeepsSystem s (Except.bind x k) := by
  cases x with
  | ok u => exact (hk u).trans h
  | error y => trivial

theorem failIf_keepsSystem {b : Bool} {r : Refusal} {k : Checked} (h : b = false → k.KeepsSystem s) :
    (failIf b r k).KeepsSystem s := by
  cases b
  · exact h rfl
  · trivial

/-- Nothing but memory, outputs and free values has changed. -/
theorem SystemKept.of_same (h : SameCore s t) : SystemKept s t := (Calm.of_same h).systemKept

/-- One engine is replaced. -/
theorem SystemKept.setBist {side : Side} {b : Bist}
    (h : Bist.Apart (s.bist side) (s.cp15.tcmOn side) → b.Apart (s.cp15.tcmOn side)) : SystemKept s (s.setBist side b) := by
  refine ⟨by simp, by simp, by simp, by simp, by simp, fun apart other => ?_⟩
  have replaced := h (apart side)
  have kept := apart other
  cases side <;> cases other
  exacts [replaced, kept, kept, replaced]

/-- An engine is replaced by one that is enabled and running as it was. -/
theorem SystemKept.setBist_same {side : Side} {b : Bist} (enable : b.enable = (s.bist side).enable)
    (running : b.running = (s.bist side).running) : SystemKept s (s.setBist side b) :=
  .setBist fun apart => by rwa [Bist.Apart, enable, running]

theorem SystemKept.setTcm (s : State) (side : Side) (t : Tcm) : SystemKept s (s.setTcm side t) := .of_same (by simp)

/-- One engine is replaced, and its TCM is functionally disabled if it is enabled (R38). -/
theorem SystemKept.setBist_off {side : Side} {b : Bist} (runs : b.running = true → b.enable = true) :
    SystemKept s (if b.enable then (s.setBist side b).tcmOff side else s.setBist side b) := by
  cases enable : b.enable
  · rw [if_neg Bool.false_ne_true]
    refine .setBist fun _ => ⟨fun on => ?_, runs⟩
    rw [enable] at on
    cases on
  · rw [if_pos rfl]
    refine ⟨by simp, by simp, by simp, by simp, by simp, fun apart other => ?_⟩
    have kept := apart other
    cases side <;> cases other
    exacts [⟨fun _ => rfl, fun _ => enable⟩, kept, kept, ⟨fun _ => rfl, fun _ => enable⟩]

theorem start_enable (b : Bist) (pause : Bool) : (b.start pause).enable = b.enable := by
  unfold Bist.start
  split <;> rfl

theorem bistWriteSide_keepsSystem (side : Side) (field : BitVec 16) (s : State) :
    (bistWriteSide side field s).KeepsSystem s := by
  refine failIf_keepsSystem fun strobes => failIf_keepsSystem fun _ => failIf_keepsSystem fun _ => ?_
  have forget : SystemKept s (bistForgets (s.bist side) (field.getLsbD 2) (field.getLsbD 0) s).2 := by
    unfold bistForgets
    split
    · exact .of_same (by simp)
    · exact .refl s
  refine Checked.KeepsSystem.trans forget ?_
  generalize bistForgets (s.bist side) (field.getLsbD 2) (field.getLsbD 0) s = forgotten
  simp only
  generalize written : ({ s.bist side with
    size := _, enable := field.getLsbD 2, pause := field.getLsbD 1, running := _, cursor := _ } : Bist) = b
  have enable : b.enable = field.getLsbD 2 := by rw [← written]
  have started : (if field.getLsbD 0 then b.start (field.getLsbD 1) else b).enable = field.getLsbD 2 := by
    split
    · rw [start_enable, enable]
    · exact enable
  rw [← started]
  refine SystemKept.setBist_off fun runs => ?_
  rw [started]
  cases strobe : field.getLsbD 0
  · rw [strobe, if_neg Bool.false_ne_true, ← written] at runs
    simp only [Bool.and_eq_true] at runs
    exact runs.1.2
  · simp only [strobe, Bool.true_and, Bool.or_eq_false_iff, Bool.not_eq_false'] at strobes
    exact strobes.1.1

theorem bistWriteControl_keepsSystem (v : Word) (s : State) : (bistWriteControl v s).KeepsSystem s :=
  failIf_keepsSystem fun _ => (bistWriteSide_keepsSystem ..).bind fun _ => bistWriteSide_keepsSystem ..

theorem afterAccess_keepsSystem {side : Side} {k : Checked} (h : k.KeepsSystem s) : (afterAccess side s k).KeepsSystem s := by
  unfold afterAccess
  split
  · trivial
  · exact h

theorem SystemKept.finishAccess (side : Side) (s : State) : SystemKept s (finishAccess side s) := by
  unfold Machine.finishAccess
  simp only
  split
  · exact .refl s
  · exact .setBist_same rfl rfl
  · refine SystemKept.trans ?_ (.setTcm ..)
    exact .setBist_same rfl rfl

theorem SystemKept.makeAccess (side : Side) (x : BistAccess) (s : State) : SystemKept s (makeAccess side x s) := by
  have noted : SystemKept s (s.setBist side { s.bist side with access := some x }) := .setBist_same rfl rfl
  unfold Machine.makeAccess
  simp only
  split
  · exact noted
  · exact noted.trans (.finishAccess ..)

theorem SystemKept.takeWord (s : State) : SystemKept s s.takeWord.2 := .of_same (by simp)

theorem takeWord_bist (s : State) (side : Side) : s.takeWord.2.bist side = s.bist side := by cases side <;> rfl

theorem takeBool_bist (s : State) (side : Side) : s.takeBool.2.bist side = s.bist side := by cases side <;> rfl

theorem bistWriteAddress_keepsSystem (side : Side) (v : Word) (s : State) : (bistWriteAddress side v s).KeepsSystem s := by
  unfold bistWriteAddress
  simp only
  split
  · refine afterAccess_keepsSystem (SystemKept.trans (.takeWord s) ?_)
    split
    · exact SystemKept.trans (.setBist_same (by rw [takeWord_bist]) (by rw [takeWord_bist])) (.makeAccess ..)
    · exact .setBist_same (by rw [takeWord_bist]) (by rw [takeWord_bist])
  · exact SystemKept.setBist_same rfl rfl

theorem bistWriteGeneral_keepsSystem (side : Side) (v : Word) (s : State) : (bistWriteGeneral side v s).KeepsSystem s := by
  unfold bistWriteGeneral
  simp only
  split
  · have taken : SystemKept s s.takeBool.2 := .of_same (by simp)
    refine afterAccess_keepsSystem (taken.trans ?_)
    split
    · exact SystemKept.trans (.setBist_same (by rw [takeBool_bist]) (by rw [takeBool_bist])) (.makeAccess ..)
    · exact .setBist_same (by rw [takeBool_bist]) (by rw [takeBool_bist])
  · exact SystemKept.setBist_same rfl rfl

/-- The work on one word enables no engine. -/
theorem bistWord_enable (b : Bist) (t : Tcm) (pass : BistPass) (a lo hi : Nat) (p : Word) :
    (bistWord b t pass a lo hi p).1.enable = b.enable := by
  have check {t : Tcm} {a : Nat} {want : Word} {k : Bist × Tcm} (hk : k.1.enable = b.enable) :
      (bistCheck b t a want k).1.enable = b.enable := by
    unfold bistCheck
    simp only
    split
    · rfl
    · exact hk
  have either {c : Prop} [Decidable c] {x y : Bist} (hx : x.enable = b.enable) (hy : y.enable = b.enable) :
      (if c then x else y).enable = b.enable := by
    split
    · exact hx
    · exact hy
  cases pass with
  | one => exact either rfl rfl
  | two => exact check (check (either rfl rfl))
  | three => exact check (either rfl rfl)

/-- A running engine is enabled, and stays so (R344). -/
theorem bistTick_keepsSystem (side : Side) (s : State) : (bistTick side s).KeepsSystem s := by
  unfold bistTick
  simp only
  split
  · exact SystemKept.refl s
  · split
    next c _ runs =>
      refine failIf_keepsSystem fun _ => SystemKept.trans (SystemKept.setBist fun apart => ?_) (.setTcm ..)
      rw [Bool.and_eq_true] at runs
      rw [Bist.Apart, bistWord_enable]
      exact ⟨apart.1, fun _ => apart.2 runs.1⟩
    · exact SystemKept.refl s

/-! ## CP15 (R123 to R143) -/

/-- A TCM is enabled only while its engine is not (R130). -/
theorem enableGuard_keepsSystem {side : Side} {on : Bool} {k : Checked}
    (h : ((s.bist side).enable = true → on = false) → k.KeepsSystem s) : (enableGuard side on s k).KeepsSystem s := by
  refine failIf_keepsSystem fun _ => failIf_keepsSystem fun off => failIf_keepsSystem fun _ => h fun enabled => ?_
  rwa [enabled, Bool.and_true] at off

theorem writeControl_keepsSystem (v : Word) (s : State) : (writeControl v s).KeepsSystem s := by
  refine enableGuard_keepsSystem fun itcm => enableGuard_keepsSystem fun dtcm =>
    ⟨rfl, rfl, rfl, rfl, rfl, fun apart side => ?_⟩
  cases side
  · exact ⟨itcm, (apart .itcm).2⟩
  · exact ⟨dtcm, (apart .dtcm).2⟩

/-- Settings of CP15 other than the enables of the TCMs and the engines. -/
theorem bistApart_of_engines (i : t.cp15.i = s.cp15.i) (d : t.cp15.d = s.cp15.d) (bistI : t.cp15.bistI = s.cp15.bistI)
    (bistD : t.cp15.bistD = s.cp15.bistD) (apart : s.bistApart) : t.bistApart := by
  intro side
  have kept := apart side
  cases side
  · rw [State.bist, Cp15.tcmOn, i, bistI]
    exact kept
  · rw [State.bist, Cp15.tcmOn, d, bistD]
    exact kept

theorem writeConfig_keepsSystem (v : Word) (s : State) : (writeConfig v s).KeepsSystem s :=
  failIf_keepsSystem fun _ => ⟨rfl, rfl, rfl, rfl, rfl, bistApart_of_engines rfl rfl rfl rfl⟩

theorem Settled.bistReadAddress (side : Side) (s : State) : Settled s (bistReadAddress side s).2 := by
  unfold Machine.bistReadAddress
  simp only
  split
  · exact .refl s
  · exact .takeWord s

theorem Settled.bistReadGeneral (side : Side) (s : State) : Settled s (bistReadGeneral side s).2 := by
  unfold Machine.bistReadGeneral
  simp only
  split
  · exact .refl s
  · split
    · exact .refl s
    · exact .takeWord s

theorem ends_cp15Op {c : Cond} {rd : Reg} {k : State → Result} (h : s.privileged = true → rd ≠ 15 → Ends th s (k s)) :
    Ends th s (cp15Op c rd k s) := by
  refine ends_onCond ?_
  split
  next privileged =>
    exact ends_refuseIf fun noPc => h privileged (ne_pc_of_not_usesR15 noPc rd (by simp))
  · exact ends_raiseUndefined (.refl s)

/-- A read of a register: at most a free value is taken. -/
theorem ends_cp15Read {c : Cond} {rd : Reg} {read : State → Word × State} (h : Settled s (read s).2) :
    Ends th s (cp15Read c rd read s) := ends_cp15Op fun _ rd15 => ends_setReg h rd15 _

/-- A read of a register whose value the state holds. -/
theorem ends_cp15Value (c : Cond) (rd : Reg) (value : State → Word) (s : State) :
    Ends th s (cp15Read c rd (fun s => (value s, s)) s) :=
  ends_cp15Read (read := fun s => (value s, s)) (Settled.refl s)

theorem ends_cp15Write {c : Cond} {rd : Reg} {write : Word → State → Checked} (h : ∀ v, (write v s).KeepsSystem s) :
    Ends th s (cp15Write c rd write s) := by
  refine ends_cp15Op fun privileged _ => ?_
  have written := h (s.reg rd)
  cases eq : write (s.reg rd) s with
  | ok u => rw [eq] at written; exact ended_privileged privileged (SystemKept.advance written)
  | error x => exact ends_stop th s x

theorem ends_bistGeneralRead (side : Side) (c : Cond) (rd : Reg) (s : State) : Ends th s (bistGeneralRead side c rd s) := by
  refine ends_cp15Op fun _ rd15 => ?_
  split
  · trivial
  · exact ends_setReg (.bistReadGeneral side s) rd15 _

theorem Settled.drainAll (s : State) : Settled s s.drainAll :=
  ((MemoryOnly.drainAhb s).trans ((MemoryOnly.drainTcm _ .itcm).trans (.drainTcm _ .dtcm))).settled

theorem ends_drainWriteBuffer (s : State) : Ends th s (drainWriteBuffer s) := by
  unfold drainWriteBuffer
  split
  · trivial
  · exact (Settled.drainAll s).advances

theorem ends_waitForInterrupt (c : Cond) (rd : Reg) (s : State) :
    Ends th s (cp15Op c rd (fun s => (waitForInterrupt s).done) s) := by
  have waits : Settled s (waitForInterrupt s) := .of_same (by simp [waitForInterrupt])
  exact ends_cp15Op fun _ _ => waits.advances

theorem ends_mcrProcId (c : Cond) (rd crm : Reg) (s : State) : Ends th s (execMcrProcId c rd crm s) :=
  ends_cp15Write (write := fun v s => .ok { s with cp15 := { s.cp15 with procId := v, procIdWr := true } })
    fun _ => ⟨rfl, rfl, rfl, rfl, rfl, bistApart_of_engines rfl rfl rfl rfl⟩

theorem ends_p15Other (c : Cond) (l : Bool) (op1 : BitVec 3) (crn rd : Reg) (op2 : BitVec 3) (crm : Reg) (s : State) :
    Ends th s (execP15Other c l op1 crn rd op2 crm s) := by
  refine ends_onCond (c := c) ?_
  split
  · trivial
  · exact ends_raiseUndefined (.refl s)

/-! ## CP14 (R162 to R168) -/

theorem ends_cp14Op {c : Cond} {k : State → Result} (h : s.privileged = true → Ends th s (k s)) :
    Ends th s (cp14Op c k s) :=
  ends_onCond (ends_refuseIf fun user => h (by simpa using user))

theorem ends_mrcCommsStatus (c : Cond) (rd : Reg) (s : State) : Ends th s (execMrcCommsStatus c rd s) :=
  ends_cp14Op (c := c) fun _ => ends_writeFromCoprocessor (.takeWord s) rd _

theorem ends_mrcCommsData (c : Cond) (rd : Reg) (s : State) : Ends th s (execMrcCommsData c rd s) :=
  ends_cp14Op (c := c) fun privileged => ends_writeFromCoprocessor (.withDcc privileged _) rd _

theorem ends_mrcMonitorStatus (c : Cond) (rd : Reg) (s : State) : Ends th s (execMrcMonitorStatus c rd s) :=
  ends_cp14Op (c := c) fun _ => ends_writeFromCoprocessor (.refl s) rd _

theorem ends_mcrCommsData (c : Cond) (rd : Reg) (s : State) : Ends th s (execMcrCommsData c rd s) :=
  ends_cp14Op (c := c) fun privileged => ends_refuseIf fun _ => (Settled.withDcc privileged _).advances

theorem ends_mcrMonitorStatus (c : Cond) (rd : Reg) (s : State) : Ends th s (execMcrMonitorStatus c rd s) :=
  ends_cp14Op (c := c) fun privileged => ends_refuseIf fun _ => (Settled.withDcc privileged _).advances

end Sys2Proof.Machine
end

section
/-! SUPPORT. Proofs: how every instruction ends, and what User mode cannot change (R22, R23, R27, R124, R212, R312, R327). -/

namespace Sys2Proof.Machine

variable {s t : State}

/-! ## Every instruction -/

/-- Every instruction that goes on has kept what must be legal, and in User mode it has left everything privileged alone or taken
an exception. -/
theorem exec_ends (i : Instr) (s : State) : Ends (Code.isThumb (encode i)) s (exec i s) := by
  have go : Settled s s := .refl s
  cases i with
  | pldImm | pldReg => exact ends_done _ s
  | unallocUncondLsm | unallocUncondMcrr | unallocUncond | unallocThumbMisc | unallocBlxSuffix => trivial
  | unallocCp | unallocArith | unallocExt | unallocMisc | p15Transfer | p15Cdp | p14Transfer | p14Cdp | p14Other =>
    apply ends_onCond
    trivial
  | p15Other c l op1 crn rd op2 crm => exact ends_p15Other c l op1 crn rd op2 crm s
  | undefinedArm | undefinedArm2 =>
    apply ends_onCond
    exact ends_raiseUndefined (.refl s)
  | undefinedThumb => exact ends_raiseUndefined (.refl s)
  | swi =>
    apply ends_onCond
    exact ends_raise _ s (x := .swi) (by decide)
  | tSwi => exact ends_raise _ s (x := .swi) (by decide)
  | bkpt => exact ends_refuseIf fun _ => ends_raise _ s (x := .prefetchAbort) (by decide)
  | tBkpt => exact ends_raise _ s (x := .prefetchAbort) (by decide)
  | ldc2 => exact ends_refuseIf fun _ => ends_loadCoprocessor ..
  | stc2 => exact ends_refuseIf fun _ => ends_storeCoprocessor ..
  | cdp2 => exact ends_refuseIf fun _ => ends_coprocessorOperation ..
  | mcr2 => exact ends_refuseIf fun _ => ends_moveToCoprocessor ..
  | mrc2 => exact ends_refuseIf fun _ => ends_moveFromCoprocessor ..
  | ldc =>
    apply ends_onCond
    exact ends_loadCoprocessor ..
  | stc =>
    apply ends_onCond
    exact ends_storeCoprocessor ..
  | cdp =>
    apply ends_onCond
    exact ends_coprocessorOperation ..
  | mcr | mcrr =>
    apply ends_onCond
    exact ends_moveToCoprocessor ..
  | mrc =>
    apply ends_onCond
    exact ends_moveFromCoprocessor ..
  | mrrc =>
    apply ends_onCond
    exact ends_moveTwoFromCoprocessor ..
  | mrcTcmSize c rd => exact ends_cp15Value c rd State.tcmSizeReg s
  | mrcIdCode c rd => exact ends_cp15Value c rd (fun _ => idCode) s
  | mrcProcId c rd => exact ends_cp15Value c rd (fun s => s.cp15.procId) s
  | mrcControl | mrcConfigControl | mrcBistControl => exact ends_cp15Read (Settled.takeWord s)
  | mrcIBistAddress => exact ends_cp15Read (.bistReadAddress .itcm s)
  | mrcDBistAddress => exact ends_cp15Read (.bistReadAddress .dtcm s)
  | mrcIBistGeneral => exact ends_bistGeneralRead .itcm ..
  | mrcDBistGeneral => exact ends_bistGeneralRead .dtcm ..
  | mcrControl => exact ends_cp15Write fun v => writeControl_keepsSystem v s
  | mcrProcId c rd crm => exact ends_mcrProcId c rd crm s
  | mcrConfigControl => exact ends_cp15Write fun v => writeConfig_keepsSystem v s
  | mcrBistControl => exact ends_cp15Write fun v => bistWriteControl_keepsSystem v s
  | mcrIBistAddress => exact ends_cp15Write fun v => bistWriteAddress_keepsSystem .itcm v s
  | mcrDBistAddress => exact ends_cp15Write fun v => bistWriteAddress_keepsSystem .dtcm v s
  | mcrIBistGeneral => exact ends_cp15Write fun v => bistWriteGeneral_keepsSystem .itcm v s
  | mcrDBistGeneral => exact ends_cp15Write fun v => bistWriteGeneral_keepsSystem .dtcm v s
  | mcrWaitForInterrupt | mcrWaitForInterruptLegacy => exact ends_waitForInterrupt ..
  | mcrDrainWriteBuffer => exact ends_cp15Op fun _ _ => ends_drainWriteBuffer s
  | mrcCommsStatus => exact ends_mrcCommsStatus ..
  | mrcCommsData => exact ends_mrcCommsData ..
  | mrcMonitorStatus => exact ends_mrcMonitorStatus ..
  | mcrCommsData => exact ends_mcrCommsData ..
  | mcrMonitorStatus => exact ends_mcrMonitorStatus ..
  | b =>
    apply ends_onCond
    exact ends_jumpRelative (branchOffset24_whole _) go
  | bl =>
    apply ends_onCond
    exact ends_jumpRelative (branchOffset24_whole _) (.linkNext s)
  | tBCond =>
    apply ends_onCond
    exact ends_jumpRelative (thumbOffset_whole _) go
  | tB => exact ends_jumpRelative (thumbOffset_whole _) go
  | blxImm => exact ends_blxImm ..
  | bx | blxReg =>
    apply ends_onCond
    exact ends_refuseIf fun _ => ends_refuseIf fun _ => ends_exchangeTo ..
  | tBx => exact ends_refuseIf fun _ => ends_refuseIf fun _ => ends_jumpExchange go _
  | tBlxReg => exact ends_refuseIf fun _ => ends_refuseIf fun _ => ends_jumpExchange go.thumbLink _
  | tBlPrefix => exact ends_tBlPrefix ..
  | tBlSuffix => exact ends_tBlSuffix ..
  | tBlxSuffix => exact ends_tBlxSuffix ..
  | mrs => exact ends_mrs ..
  | msrReg =>
    apply ends_onCond
    exact ends_refuseIf fun _ => ends_refuseIf fun _ => ends_msr ..
  | msrImm =>
    apply ends_onCond
    exact ends_refuseIf fun _ => ends_msr ..
  | mul =>
    apply ends_onCond
    exact ends_refuseIf fun _ => ends_mul32 ..
  | mla => exact ends_mla ..
  | umull | umlal | smull | smlal => exact ends_mul64 ..
  | smlaxy c x y rd | smlawy c y rd =>
    apply ends_onCond
    exact ends_mulGuard fun noPc => ends_accumulateQ (noPc rd (by simp)) ..
  | smulxy c x y rd | smulwy c y rd =>
    apply ends_onCond
    exact ends_refuseIf fun _ => ends_mulGuard fun noPc => ends_mulWrite _ (noPc rd (by simp)) ..
  | smlalxy c x y rdHi rdLo =>
    apply ends_onCond
    exact ends_mulGuard fun noPc => ends_mulWriteLong _ (noPc rdHi (by simp)) (noPc rdLo (by simp)) ..
  | qadd | qsub | qdadd | qdsub => exact ends_saturating ..
  | clz c sbo1 rd =>
    apply ends_onCond
    exact ends_refuseIf fun _ => ends_mulGuard fun noPc => ends_mulWrite _ (noPc rd (by simp)) ..
  | andShift | eorShift | subShift | rsbShift | addShift | adcShift | sbcShift | rscShift | orrShift | bicShift =>
    exact ends_aluShift ..
  | andRegShift | eorRegShift | subRegShift | rsbRegShift | addRegShift | adcRegShift | sbcRegShift | rscRegShift
  | orrRegShift | bicRegShift => exact ends_aluRegShift ..
  | andImm | eorImm | subImm | rsbImm | addImm | adcImm | sbcImm | rscImm | orrImm | bicImm => exact ends_aluImm ..
  | tstShift | teqShift | cmpShift | cmnShift => exact ends_testShift ..
  | tstRegShift | teqRegShift | cmpRegShift | cmnRegShift => exact ends_testRegShift ..
  | tstImm | teqImm | cmpImm | cmnImm => exact ends_testImm ..
  | movShift | mvnShift => exact ends_movShift ..
  | movRegShift | mvnRegShift => exact ends_movRegShift ..
  | movImm | mvnImm => exact ends_movImm ..
  | tLslImm | tLsrImm | tAsrImm | tLslReg | tLsrReg | tAsrReg | tRorReg | tAddReg | tSubReg | tAddImm3 | tSubImm3
  | tAddImm8 | tSubImm8 | tAdc | tSbc | tNeg => exact ends_thumbArith ..
  | tMovImm | tAnd | tEor | tOrr | tBic | tMvn => exact ends_thumbLogic ..
  | tMul => exact ends_refuseIf fun _ => ends_thumbLogic ..
  | tCmpImm | tCmpReg | tCmn => exact ends_thumbCompare ..
  | tCmpHi => exact ends_refuseIf fun _ => ends_refuseIf fun _ => ends_thumbCompare ..
  | tAddHi | tMovHi => exact ends_refuseIf fun _ => ends_thumbWriteAny ..
  | tTst => exact ends_setNz go _
  | tAddPcImm | tAddSpImm => exact ends_setReg go (loReg_ne_pc _) _
  | tAddSp | tSubSp => exact ends_setReg go (rd := spReg) (by decide) _
  | ldrtImm => exact ends_mode2Imm (ends_loadWordNoPc _) ..
  | ldrImm => exact ends_mode2Imm (ends_loadWord _) ..
  | ldrbtImm | ldrbImm => exact ends_mode2Imm (ends_loadNarrow _ _ _) ..
  | strtImm | strbtImm | strImm | strbImm => exact ends_mode2Imm (ends_storeOne _ _ _) ..
  | ldrtReg => exact ends_mode2Reg (ends_loadWordNoPc _) ..
  | ldrReg => exact ends_mode2Reg (ends_loadWord _) ..
  | ldrbtReg | ldrbReg => exact ends_mode2Reg (ends_loadNarrow _ _ _) ..
  | strtReg | strbtReg | strReg | strbReg => exact ends_mode2Reg (ends_storeOne _ _ _) ..
  | strhImm => exact ends_mode3Imm ends_storeHalf ..
  | strhReg => exact ends_mode3Reg ends_storeHalf ..
  | ldrdImm => exact ends_mode3Imm ends_loadDouble ..
  | ldrdReg => exact ends_mode3Reg (ends_loadDoubleReg _) ..
  | strdImm => exact ends_mode3Imm ends_storeDouble ..
  | strdReg => exact ends_mode3Reg ends_storeDouble ..
  | ldrhImm | ldrsbImm | ldrshImm => exact ends_mode3Imm (ends_loadNarrow _ _ _) ..
  | ldrhReg | ldrsbReg | ldrshReg => exact ends_mode3Reg (ends_loadNarrow _ _ _) ..
  | swp | swpb => exact ends_swap ..
  | ldmReturn => exact ends_ldmReturn ..
  | ldmUser => exact ends_ldmUser ..
  | ldm =>
    apply ends_onCond
    exact ends_ldmList ..
  | stmUser => exact ends_stmUser ..
  | stm =>
    apply ends_onCond
    exact ends_stmList ..
  | tPush | tStmia => exact ends_stmList ..
  | tPop | tLdmia => exact ends_ldmList ..
  | tLdrLit | tLdrsbReg | tLdrReg | tLdrhReg | tLdrbReg | tLdrshReg | tLdrImm | tLdrbImm | tLdrhImm | tLdrSp =>
    exact ends_thumbLoad ..
  | tStrReg | tStrhReg | tStrbReg | tStrImm | tStrbImm | tStrhImm | tStrSp => exact ends_thumbStore ..

theorem exec_ended {i : Instr} (run : exec i s = .next t) : Ended (Code.isThumb (encode i)) s t := by
  have ends := exec_ends i s
  rwa [run] at ends

/-! ## User mode -/

/-- Settles O51: an instruction that goes on in User mode completes there or takes one of the four exceptions. -/
theorem userModeIsConfined : Obligations.UserModeIsConfined := by
  unfold Obligations.UserModeIsConfined
  intro i s t user run
  obtain kept | ⟨x, member, raised⟩ := (exec_ended run).user user
  · have mode : t.mode = .usr := by rw [State.mode, kept.mode]; exact user
    exact .inl ⟨mode, kept.i, kept.f, kept.spsr, kept.cp15, kept.dcc, kept.hidden⟩
  · obtain ⟨m, index, spsr⟩ := raised.spsr
    exact .inr ⟨x, member, m, index, raised.cpsr, spsr, raised.pc, raised.cp15, raised.hidden user⟩

end Sys2Proof.Machine
end

section
/-! SUPPORT. Proofs: what is fetched is of the instruction set state it is fetched in (R55, R76, R98). -/

namespace Sys2Proof.Machine

variable {s t u : State} {f : Fetched} {a : Word} {big itcmOn : Bool}

/-- The instructions are those of one state. -/
def PipeFits (thumb : Bool) (l : List Fetched) : Prop := ∀ f ∈ l, Code.isThumb f.code = thumb

theorem FetchOnly.cpsr (h : FetchOnly s t) : t.cpsr = s.cpsr := by rw [h.core]

theorem FetchOnly.thumb (h : FetchOnly s t) : t.thumb = s.thumb := by rw [State.thumb, h.cpsr, State.thumb]

theorem FetchOnly.pc (h : FetchOnly s t) : t.pc = s.pc := by rw [h.core]

theorem FetchOnly.spsr (h : FetchOnly s t) : t.spsr = s.spsr := by rw [h.core]

theorem FetchOnly.cp15 (h : FetchOnly s t) : t.cp15 = s.cp15 := by rw [h.core]

/-- A fetch moves no status register and no engine, and the stream is what is left to be said. -/
theorem FetchOnly.legalKept (h : FetchOnly s t)
    (fits : s.dbg.inDebug = false → (s.fetch.nonseq = false → PipeFits s.thumb s.fetch.pipe) → t.fetch.nonseq = false →
      PipeFits s.thumb t.fetch.pipe) : LegalKept false s t := by
  refine ⟨statusLegal_of_same h.cpsr h.spsr, fun _ legal => ⟨?_, fun running sequential => ?_⟩, bistApart_of_cp15 h.cp15⟩
  · unfold State.pcAligned
    rw [h.dbg, h.thumb, h.pc]
    exact legal.1
  · rw [h.dbg] at running
    rw [h.thumb]
    exact fits running (legal.2 running) sequential

/-- So where the pipeline only gets instructions of the state. -/
theorem FetchOnly.legalKept_of_pipe (h : FetchOnly s t) (nonseq : t.fetch.nonseq = s.fetch.nonseq)
    (fits : PipeFits s.thumb s.fetch.pipe → PipeFits s.thumb t.fetch.pipe) : LegalKept false s t :=
  h.legalKept fun _ held sequential => fits (held (nonseq.symm.trans sequential))

/-! ## One instruction -/

theorem codeOfWord_isThumb (thumb big : Bool) (a w : Word) : Code.isThumb (codeOfWord thumb big a w) = thumb := by
  cases thumb <;> rfl

theorem fetchItcm_isThumb (h : fetchItcm big a s = .ok (f, t)) : Code.isThumb f.code = s.thumb := by
  unfold fetchItcm at h
  split at h
  · cases h
  · split at h
    · cases h
    · simp only at h
      split at h <;>
      · obtain ⟨rfl, -⟩ := Prod.mk.inj (Except.ok.inj h)
        exact codeOfWord_isThumb ..

theorem fetchAhb_isThumb (h : fetchAhb big a s = .ok (f, t)) : Code.isThumb f.code = s.thumb := by
  unfold fetchAhb at h
  simp only at h
  split at h
  · obtain ⟨rfl, -⟩ := Prod.mk.inj (Except.ok.inj h)
    exact codeOfWord_isThumb ..
  · split at h
    · cases h
    · obtain ⟨rfl, -⟩ := Prod.mk.inj (Except.ok.inj h)
      exact codeOfWord_isThumb ..

theorem fetchAt_isThumb (h : fetchAt a s = .ok (f, t)) : Code.isThumb f.code = s.thumb := by
  unfold fetchAt at h
  split at h
  · cases h
  next g u read =>
    obtain ⟨rfl, -⟩ := Prod.mk.inj (Except.ok.inj h)
    show Code.isThumb g.code = s.thumb
    split at read
    · exact fetchItcm_isThumb read
    · exact fetchAhb_isThumb read

theorem readNow_isThumb (h : readNow itcmOn big a s = .ok (f, t)) : Code.isThumb f.code = s.thumb := by
  unfold readNow at h
  split at h
  · exact fetchItcm_isThumb h
  · split at h
    · cases h
    · obtain ⟨rfl, -⟩ := Prod.mk.inj (Except.ok.inj h)
      exact codeOfWord_isThumb ..

theorem heldOrNew_isThumb {held : Fetched} (fits : Code.isThumb held.code = s.thumb) :
    Code.isThumb (heldOrNew held s).1.code = s.thumb := by
  unfold heldOrNew
  split
  · exact fits
  next read =>
    split
    · exact fits
    · split
      · exact fits
      next f u _ _ => exact readNow_isThumb (f := f) read

/-! ## The stream -/

theorem fetchAhead_pipeFits (fits : PipeFits s.thumb s.fetch.pipe) : PipeFits s.thumb (fetchAhead s).fetch.pipe := by
  unfold fetchAhead
  split
  · exact fits
  · simp only
    split
    · exact fits
    · split
      · exact fits
      next f u fetched =>
        intro g member
        obtain member | member := List.mem_append.mp member
        · rw [fetchAt_pipe fetched] at member
          exact fits g member
        · rw [List.mem_singleton.mp member]
          exact fetchAt_isThumb fetched

theorem fetchAhead_legalKept (s : State) : LegalKept false s (fetchAhead s) :=
  (fetchAhead_frame s).legalKept_of_pipe (fetchAhead_nonseq s) fetchAhead_pipeFits

theorem fetchNonseq_isThumb (h : fetchNonseq s = .ok (f, t)) :
    Code.isThumb f.code = s.thumb ∧ PipeFits s.thumb t.fetch.pipe := by
  unfold fetchNonseq at h
  have code := fetchAt_isThumb (s := { s with fetch := _ }) h
  refine ⟨code, ?_⟩
  rw [fetchAt_pipe h]
  exact nofun

theorem fetchSeq_isThumb (h : fetchSeq s = .ok (f, t)) (fits : PipeFits s.thumb s.fetch.pipe) :
    Code.isThumb f.code = s.thumb ∧ PipeFits s.thumb t.fetch.pipe := by
  unfold fetchSeq at h
  simp only at h
  split at h
  · cases h
  · split at h
    next g rest held =>
      have suffix : ∀ x ∈ g :: rest, Code.isThumb x.code = s.thumb := fun x member =>
        fits x ((List.dropWhile_suffix _).subset (held ▸ member))
      have code := heldOrNew_isThumb (s := s.setPipe (g :: rest)) (suffix g List.mem_cons_self)
      have pipe := congrArg FetchState.pipe (heldOrNew_fetch g (s.setPipe (g :: rest)))
      rw [Except.ok.inj h] at code pipe
      exact ⟨code, pipe ▸ suffix⟩
    · split at h
      · cases h
      · split at h
        · cases h
        next g u fetched =>
          have thumb : (u.setPipe []).thumb = s.thumb := (fetchAt_frame fetched).thumb
          have code := heldOrNew_isThumb (s := u.setPipe []) ((fetchAt_isThumb fetched).trans thumb.symm)
          have pipe := congrArg FetchState.pipe (heldOrNew_fetch g (u.setPipe []))
          rw [Except.ok.inj h] at code pipe
          exact ⟨code.trans thumb, pipe ▸ nofun⟩

/-- The instruction to execute and those behind it are of the state that they were fetched in. -/
theorem fetchNext_isThumb (h : fetchNext s = .ok (f, t))
    (fits : s.fetch.nonseq = false → PipeFits s.thumb s.fetch.pipe) :
    Code.isThumb f.code = s.thumb ∧ PipeFits s.thumb t.fetch.pipe := by
  unfold fetchNext at h
  split at h
  · cases h
  next g u fetched =>
    obtain ⟨rfl, rfl⟩ := Prod.mk.inj (Except.ok.inj h)
    have first : Code.isThumb g.code = s.thumb ∧ PipeFits s.thumb u.fetch.pipe ∧ u.thumb = s.thumb := by
      split at fetched
      · obtain ⟨code, pipe⟩ := fetchNonseq_isThumb fetched
        exact ⟨code, pipe, (fetchNonseq_frame fetched).thumb⟩
      next sequential =>
        obtain ⟨code, pipe⟩ := fetchSeq_isThumb fetched (fits (eq_false_of_ne_true sequential))
        exact ⟨code, pipe, (fetchSeq_frame fetched).thumb⟩
    obtain ⟨code, pipe, thumb⟩ := first
    refine ⟨code, ?_⟩
    have queued : PipeFits u.thumb (g :: (u.fetch.pipe.drop 1).take 2) := by
      rw [thumb]
      intro x member
      obtain rfl | member := List.mem_cons.mp member
      · exact code
      · exact pipe x (List.mem_of_mem_drop (List.mem_of_mem_take member))
    have first := fetchAhead_pipeFits (s := u.setPipe (g :: (u.fetch.pipe.drop 1).take 2)) queued
    rw [← (fetchAhead_frame _).thumb] at first
    have second := fetchAhead_pipeFits first
    rw [(fetchAhead_frame _).thumb] at second
    exact thumb ▸ second

theorem prefetchWord_legalKept (s : State) : LegalKept false s (prefetchWord s) := by
  unfold prefetchWord
  split
  · exact .refl false s
  · simp only
    split
    · exact .refl false s
    · exact ((FetchOnly.drainAhb s).trans (.setIpb _ _)).legalKept_of_pipe rfl id

end Sys2Proof.Machine
end

section
/-! SUPPORT. Proofs: what every event and every step keeps legal: the status registers, the stream, the engines apart from their TCMs
(R23, R24, R26, R38, R76, R98, R130, R312, R325, R344). -/

namespace Sys2Proof.Machine

variable {s t u : State} {th : Bool}

/-! ## The debugger and reset -/

/-- Where an operation that may stop does not, it has kept what must be legal. -/
def Checked.KeepsLegal (s : State) : Checked → Prop
  | .ok t => LegalKept false s t
  | .error _ => True

theorem Checked.KeepsSystem.legal {x : Checked} (h : x.KeepsSystem s) : x.KeepsLegal s := by
  cases x with
  | ok u => exact SystemKept.legalKept h
  | error y => trivial

theorem Checked.KeepsLegal.trans {x : Checked} (h : LegalKept false s t) (k : x.KeepsLegal t) : x.KeepsLegal s := by
  cases x with
  | ok u => exact LegalKept.trans h k
  | error y => trivial

theorem Checked.KeepsLegal.bind {x : Checked} {k : State → Checked} (h : x.KeepsLegal s)
    (hk : ∀ u, (k u).KeepsLegal u) : Checked.KeepsLegal s (Except.bind x k) := by
  cases x with
  | ok u => exact (hk u).trans h
  | error y => trivial

theorem failIf_keepsLegal {b : Bool} {r : Refusal} {k : Checked} (h : b = false → k.KeepsLegal s) :
    (failIf b r k).KeepsLegal s := by
  cases b
  · exact h rfl
  · trivial

/-- In debug state nothing is asked of the stream. -/
theorem legalKept_inDebug (inDebug : t.dbg.inDebug = true) (status : s.statusLegal → t.statusLegal)
    (cp15 : t.cp15 = s.cp15) : LegalKept th s t :=
  ⟨status, fun _ _ => ⟨fun running => absurd (inDebug.symm.trans running) nofun,
    fun running => absurd (inDebug.symm.trans running) nofun⟩, bistApart_of_cp15 cp15⟩

theorem SystemKept.setRegs (s : State) (v : Vector Word 30) : SystemKept s { s with regs := v } :=
  ⟨rfl, rfl, rfl, rfl, rfl, bistApart_of_cp15 rfl⟩

theorem scanRead_keepsSystem {read : State → Word × State} (h : Settled s (read s).2) :
    (scanRead read s).KeepsSystem s :=
  h.systemKept.trans (.of_same (by simp))

theorem scanReadGeneral_keepsSystem (side : Side) (s : State) : (scanReadGeneral side s).KeepsSystem s := by
  unfold scanReadGeneral
  split
  · trivial
  · exact scanRead_keepsSystem (.bistReadGeneral side s)

/-- An access through scan chain 15 reads or writes a register of CP15 (R338). -/
theorem scan15_keepsSystem (write : Bool) (addr : BitVec 6) (v : Word) (s : State) :
    (scan15 write addr v s).KeepsSystem s := by
  have either {x y : Checked} (hx : x.KeepsSystem s) (hy : y.KeepsSystem s) :
      Checked.KeepsSystem s (if write then x else y) := by
    split
    · exact hx
    · exact hy
  have free : Settled s s.takeWord.2 := .takeWord s
  unfold scan15
  simp only
  split
  · exact scanRead_keepsSystem (read := fun s => (idCode, s)) (.refl s)
  · split
    · exact either (writeControl_keepsSystem v s) (scanRead_keepsSystem free)
    · split
      · exact either (bistWriteControl_keepsSystem v s) (scanRead_keepsSystem free)
      · split
        · exact either (bistWriteAddress_keepsSystem .itcm v s) (scanRead_keepsSystem (.bistReadAddress .itcm s))
        · split
          · exact either (bistWriteGeneral_keepsSystem .itcm v s) (scanReadGeneral_keepsSystem .itcm s)
          · split
            · exact either (bistWriteAddress_keepsSystem .dtcm v s) (scanRead_keepsSystem (.bistReadAddress .dtcm s))
            · split
              · exact either (bistWriteGeneral_keepsSystem .dtcm v s) (scanReadGeneral_keepsSystem .dtcm s)
              · trivial

theorem debuggerDoes_keepsLegal {k : State → Checked} (h : (k s).KeepsLegal s) : (debuggerDoes k s).KeepsLegal s := by
  unfold debuggerDoes
  split
  · exact h
  · exact LegalKept.refl false s

theorem inDebugOnly_keepsLegal {k : State → Checked} (h : s.dbg.inDebug = true → (k s).KeepsLegal s) :
    (inDebugOnly k s).KeepsLegal s :=
  debuggerDoes_keepsLegal (k := fun s => failIf (!s.dbg.inDebug) .debuggerUndescribed (k s))
    (failIf_keepsLegal fun inDebug => h (by simpa using inDebug))

theorem alignedFor_of_low {b : Bool} {a : Word} (low : a &&& ((if b then 2 else 4) - 1) = 0) : AlignedFor b a := by
  have bits := congrArg BitVec.toNat low
  rw [BitVec.toNat_and] at bits
  cases b
  · exact (Nat.and_two_pow_sub_one_eq_mod a.toNat 2).symm.trans bits
  · exact (Nat.and_two_pow_sub_one_eq_mod a.toNat 1).symm.trans bits

/-- The core leaves debug state at an aligned address (R334). -/
theorem restart_keepsLegal (s : State) : (restart s).KeepsLegal s := by
  refine failIf_keepsLegal fun low => ⟨id, fun _ _ => ?_, id⟩
  rw [decide_eq_false_iff_not, not_not] at low
  exact streamLegal_jump (alignedFor_of_low low)

theorem restartBack_keepsLegal (n : BitVec 12) (inDebug : s.dbg.inDebug = true) : (restartBack n s).KeepsLegal s := by
  have moved : LegalKept false s { s with pc := s.dbg.pc - n.setWidth 32 } := legalKept_inDebug inDebug id rfl
  exact failIf_keepsLegal fun _ => (restart_keepsLegal _).trans moved

theorem debugStore_keepsLegal (size : Size) (addr v : Word) (s : State) : (debugStore size addr v s).KeepsLegal s := by
  have write := memWrite_settles false false false size addr v s
  refine failIf_keepsLegal fun _ => ?_
  split
  next eq => rw [eq] at write; exact (Settled.toCalm write).systemKept.legalKept
  next eq => rw [eq] at write; exact (Calm.systemKept write).legalKept
  · trivial

theorem debugLoad_keepsLegal (index : Fin 30) (size : Size) (addr : Word) (s : State) :
    (debugLoad index size addr s).KeepsLegal s := by
  have read := memRead_settles false size addr s
  have set {t : State} (v : Vector Word 30) (h : Calm s t) : LegalKept false s { t with regs := v } :=
    (h.systemKept.trans (.setRegs t v)).legalKept
  have free {t : State} (h : Calm s t) : Calm s t.takeWord.2 := h.same (by simp)
  unfold debugLoad
  simp only
  split
  next eq =>
    rw [eq] at read
    have read := Settled.toCalm read
    split
    · exact set _ read
    · split
      · exact set _ (free read)
      · exact set _ read
    · exact set _ read
  next eq => rw [eq] at read; exact set _ (free read)
  · trivial

theorem debugCpsr_keepsLegal (v : Word) (inDebug : s.dbg.inDebug = true) : (debugCpsr v s).KeepsLegal s := by
  refine failIf_keepsLegal fun mode => failIf_keepsLegal fun reserved => ?_
  rw [Bool.not_eq_false'] at mode
  rw [decide_eq_false_iff_not, not_not] at reserved
  exact legalKept_inDebug inDebug (fun legal => ⟨mode, reserved, legal.2.2⟩) rfl

theorem debugSpsr_keepsLegal (k : Fin 5) (v : Word) (s : State) : (debugSpsr k v s).KeepsLegal s := by
  refine failIf_keepsLegal fun reserved => ⟨fun legal => ⟨legal.1, legal.2.1, ?_⟩, fun _ => id, id⟩
  rw [decide_eq_false_iff_not, not_not] at reserved
  exact reserved_set legal.2.2 reserved

theorem debugPc_keepsLegal (v : Word) (inDebug : s.dbg.inDebug = true) : (debugPc v s).KeepsLegal s :=
  failIf_keepsLegal fun _ => legalKept_inDebug inDebug id rfl

theorem dbgTrst_keepsSystem (s : State) : (dbgTrst s).KeepsSystem s := SystemKept.of_same (by simp)

/-- The bits of a partly free word that are stated. -/
theorem partlyFree_field {v mask free : Word} {lo len : Nat} (stated : ∀ j < len, (~~~mask).getLsbD (lo + j) = false) :
    (partlyFree v mask free).extractLsb' lo len = v.extractLsb' lo len := by
  have same : partlyFree v mask free = replaceBits v free (~~~mask &&& ~~~mask) := by
    simp [partlyFree, replaceBits]
  rw [same]
  exact replaceBits_field v free (~~~mask) stated

/-- HRESETn puts the core into Supervisor mode, ARM state, at its vector, and clears the engines (R351, R352). -/
theorem hReset_keepsLegal (s : State) : LegalKept th s (hReset s) := by
  refine ⟨fun _ => ⟨?_, ?_, fun k => ?_⟩,
    fun _ _ => ⟨pcAligned_iff.mpr fun _ => alignedFor_of_mod _ ?_, nofun⟩, fun _ side => ?_⟩
  · have mode : Psr.m (hReset s).cpsr = 0b10011 := partlyFree_field (by decide)
    rw [mode]
    rfl
  · exact partlyFree_field (by decide)
  · show Psr.reserved (Vector.map _ _)[k.val] = 0
    rw [Vector.getElem_map, Psr.reserved, BitVec.extractLsb'_and]
    exact BitVec.and_zero
  · show (if s.pins.vinithi then 0xFFFF0000 else 0 : Word).toNat % 4 = 0
    split <;> rfl
  · cases side <;> exact ⟨nofun, nofun⟩

/-! ## Events -/

theorem setHung_systemKept (itcm dtcm ahb : Bool) (s : State) : SystemKept s (setHung itcm dtcm ahb s) := by
  have answers (hung : Bool) (side : Side) (u : State) : SystemKept u (if hung then u else finishAccess side u) := by
    split
    · exact .refl u
    · exact .finishAccess side u
  exact SystemKept.trans (.of_same (by simp)) (SystemKept.trans (answers itcm .itcm _) (answers dtcm .dtcm _))

theorem setUnit_systemKept (second : Bool) (u : WatchUnit) (s : State) : SystemKept s (setUnit second u s) := by
  unfold setUnit
  split <;> exact .of_same (by simp)

theorem fetchesAlone_legalKept {k : State → State} (h : LegalKept false s (k s)) : LegalKept false s (fetchesAlone k s) := by
  unfold fetchesAlone
  split
  · exact .refl false s
  · exact h

/-- Every event of another agent keeps what must be legal. -/
theorem applyEvent_keepsLegal (e : EnvEvent) (s : State) : (applyEvent e s).KeepsLegal s := by
  have same {t : State} (h : SameCore s t) : LegalKept false s t := (SystemKept.of_same h).legalKept
  cases e with
  | lines | fifofull | edbgrq | dbgiebkpt | dbgdewpt | dbgext | between | etmen => exact same (by simp)
  | bus e => exact (MemoryOnly.applyBus s e).settled.systemKept.legalKept
  | hung itcm dtcm ahb => exact (setHung_systemKept itcm dtcm ahb s).legalKept
  | prefetch => exact fetchesAlone_legalKept (prefetchWord_legalKept s)
  | pipelineFetch => exact fetchesAlone_legalKept (fetchAhead_legalKept s)
  | bistTick side => exact (bistTick_keepsSystem side s).legal
  | cpReply num r => exact same (by simp)
  | dccSend v => exact debuggerDoes_keepsLegal (k := dccSend v) (failIf_keepsLegal fun _ => same (by simp))
  | dccReceive =>
    exact debuggerDoes_keepsLegal (k := fun s => .ok { s with dcc := { s.dcc with w := false } }) (same (by simp))
  | scan15 write addr v => exact inDebugOnly_keepsLegal fun _ => (scan15_keepsSystem write addr v s).legal
  | setUnit second u =>
    exact debuggerDoes_keepsLegal (k := fun s => .ok (setUnit second u s)) (setUnit_systemKept second u s).legalKept
  | setDebugControl monitor request =>
    exact debuggerDoes_keepsLegal (k := fun s => .ok { s with dbg := { s.dbg with monitor := monitor, request := request } })
      (same (by simp))
  | restart => exact inDebugOnly_keepsLegal fun _ => restart_keepsLegal s
  | restartBack n => exact inDebugOnly_keepsLegal (k := restartBack n) (restartBack_keepsLegal n)
  | debugReg index v =>
    exact inDebugOnly_keepsLegal (k := fun s => .ok { s with regs := s.regs.set index v })
      fun _ => (SystemKept.setRegs s _).legalKept
  | debugPc v => exact inDebugOnly_keepsLegal (k := debugPc v) (debugPc_keepsLegal v)
  | debugCpsr v => exact inDebugOnly_keepsLegal (k := debugCpsr v) (debugCpsr_keepsLegal v)
  | debugSpsr index v => exact inDebugOnly_keepsLegal (k := debugSpsr index v) fun _ => debugSpsr_keepsLegal index v s
  | debugLoad index size addr => exact inDebugOnly_keepsLegal fun _ => debugLoad_keepsLegal index size addr s
  | debugStore size addr v => exact inDebugOnly_keepsLegal fun _ => debugStore_keepsLegal size addr v s
  | dbgTrst => exact (dbgTrst_keepsSystem s).legal
  | reset => exact hReset_keepsLegal s

theorem applyEvents_keepsLegal (l : List EnvEvent) (s : State) : (applyEvents l s).KeepsLegal s := by
  induction l generalizing s with
  | nil => exact LegalKept.refl false s
  | cons e es ih => exact (applyEvent_keepsLegal e s).bind ih

/-! ## The step -/

/-- Where a step goes on, it has kept what must be legal. -/
def KeepsLegal (th : Bool) (s : State) : Result → Prop
  | .next t => LegalKept th s t
  | .fault _ => True
  | .refused _ => True

theorem KeepsLegal.after {r : Result} (h : SystemKept s t) (k : KeepsLegal th t r) : KeepsLegal th s r := by
  cases r with
  | next u => exact LegalKept.after h k
  | fault f => trivial
  | refused f => trivial

theorem begun_systemKept (s : State) : SystemKept s s.begun := by
  rw [s.begun_core]
  exact ⟨rfl, rfl, rfl, rfl, rfl, bistApart_of_engines rfl rfl rfl rfl⟩

theorem beginStep_keepsLegal (s : State) : (beginStep s).KeepsLegal s := by
  unfold beginStep
  simp only
  split
  · exact (begun_systemKept s).legalKept
  next batch rest _ =>
    have due : SystemKept s { s.begun with env := rest } := (begun_systemKept s).trans (.of_same (by simp))
    exact (applyEvents_keepsLegal batch _).trans due.legalKept

theorem enterDebugAt_legalKept (found : Word) (s : State) : LegalKept th s (enterDebugAt found s) :=
  legalKept_inDebug rfl (statusLegal_of_same (by simp [enterDebugAt]) (by simp [enterDebugAt])) (by simp [enterDebugAt])

theorem enterDebug_legalKept (s : State) : LegalKept th s (enterDebug s) :=
  (enterDebugAt_legalKept _ _).after (.takeWord s)

theorem endInstruction_legalKept (s : State) : LegalKept false s (endInstruction s) := by
  unfold endInstruction
  split
  · exact .refl false s
  · exact (SystemKept.of_same (by simp)).legalKept
  · exact enterDebugAt_legalKept _ s

theorem endEntry_legalKept (s : State) : LegalKept false s (endEntry s) := by
  unfold endEntry
  split
  · exact .refl false s
  · exact enterDebugAt_legalKept _ s
  · exact enterDebugAt_legalKept _ s

theorem enter_legalKept (s : State) (x : Exc) : LegalKept th s (s.enter x) := by
  unfold State.enter
  refine LegalKept.trans ?_ (endEntry_legalKept _)
  exact (raise_raised _ x).legalKept.after (.of_same (by simp))

theorem executed_systemKept (t : State) (i : Instr) (s : State) : SystemKept t (t.executed i s) :=
  .of_same ⟨rfl, rfl, rfl, rfl, rfl, rfl, rfl⟩

theorem inExecute_systemKept (s : State) (f : Fetched) : SystemKept s (s.inExecute f) :=
  .of_same ⟨rfl, rfl, rfl, rfl, rfl, rfl, rfl⟩

theorem runInstr_keepsLegal (i : Instr) (s : State) : KeepsLegal (Code.isThumb (encode i)) s (runInstr i s) := by
  unfold runInstr
  split
  · trivial
  · split
    next t run =>
      have ran : LegalKept (Code.isThumb (encode i)) s t := (exec_ended run).legal.after (.of_same (by simp))
      have shown : LegalKept (Code.isThumb (encode i)) s (t.executed i s) :=
        ran.trans (executed_systemKept t i s).legalKept
      show LegalKept _ s (ite _ _ _)
      split
      · exact shown.trans (SystemKept.of_same (by simp)).legalKept
      · exact shown.trans (endInstruction_legalKept _)
    · trivial
    · trivial

/-- The instruction executed is one of the set that its code is of. -/
theorem runDecoded_keepsLegal (c : Code) (s : State) : KeepsLegal (Code.isThumb c) s (runInstr (decode c) s) := by
  have ran := runInstr_keepsLegal (decode c) s
  rwa [(encodeDecode c).2] at ran

theorem runFetched_keepsLegal (f : Fetched) (s : State) : KeepsLegal (Code.isThumb f.code) s (runFetched f s) := by
  unfold runFetched
  split
  · exact enter_legalKept s .prefetchAbort
  · split
    · trivial
    · split
      · exact (enter_legalKept s.setDbgAbt .prefetchAbort).after (.of_same (by simp))
      · exact enterDebug_legalKept s
    · split
      · trivial
      · exact runDecoded_keepsLegal f.code s

/-- A core that runs executes what was fetched in its state; an instruction that waits for a coprocessor is an ARM one. -/
theorem nextInstruction_keepsLegal (running : s.dbg.inDebug = false) : KeepsLegal false s (nextInstruction s) := by
  unfold nextInstruction
  split
  · split
    · trivial
    · exact runDecoded_keepsLegal (.arm _) s
  · split
    next x _ => cases x <;> trivial
    next f u fetched =>
      have frame := fetchNext_frame fetched
      have kept : LegalKept false s (u.inExecute f) :=
        (frame.legalKept fun _ held _ => (fetchNext_isThumb fetched held).2).trans
          (inExecute_systemKept u f).legalKept
      have ran := runFetched_keepsLegal f (u.inExecute f)
      cases answer : runFetched f (u.inExecute f) with
      | next t =>
        rw [answer] at ran
        refine ⟨LegalKept.status ran ∘ kept.status, fun on legal => ?_, LegalKept.bist ran ∘ kept.bist⟩
        refine LegalKept.stream ran (fun thumb => ?_) (kept.stream on legal)
        have code := (fetchNext_isThumb fetched (legal.2 running)).1
        exact frame.thumb.trans (code.symm.trans thumb)
      | fault f => trivial
      | refused f => trivial

theorem awakeStep_keepsLegal (running : s.dbg.inDebug = false) : KeepsLegal false s (awakeStep s) := by
  unfold awakeStep
  split
  · exact LegalKept.refl false s
  · split
    · exact enter_legalKept s .fiq
    · split
      · exact enter_legalKept s .irq
      · exact nextInstruction_keepsLegal running

theorem coreStep_keepsLegal (s : State) : KeepsLegal false s (coreStep s) := by
  unfold coreStep
  split
  · exact LegalKept.refl false s
  next running =>
    have running := eq_false_of_ne_true running
    split
    · split
      · trivial
      · unfold debugRequested
        split
        · exact nextInstruction_keepsLegal running
        · exact enterDebug_legalKept s
    · split
      · exact LegalKept.refl false s
      · exact (awakeStep_keepsLegal (s := { s with standby := false }) running).after (.of_same (by simp))

/-- Every step keeps the status registers legal, the stream aligned and the engines apart. -/
theorem step_keepsLegal (h : step s = .next t) : LegalKept false s t := by
  have begins := beginStep_keepsLegal s
  unfold step at h
  split at h
  next x _ => cases x <;> cases h
  next u eq =>
    rw [eq] at begins
    have kept := coreStep_keepsLegal u
    rw [h] at kept
    exact LegalKept.trans begins kept

/-! ## The obligations -/

/-- Settles O54: the CPSR and the SPSRs are written with legal modes and without reserved bits, or not at all. -/
theorem statusStaysLegal : Obligations.StatusStaysLegal := by
  unfold Obligations.StatusStaysLegal
  exact fun s t legal run => (step_keepsLegal run).status legal

/-- Settles O55: every jump is to a nonsequential fetch at an aligned address, and what is fetched is of the state of the core. -/
theorem pcStaysAligned : Obligations.PcStaysAligned := by
  unfold Obligations.PcStaysAligned
  exact fun s t legal run => (step_keepsLegal run).stream nofun legal

/-- Settles O57: the enable of an engine clears that of its TCM, which is not set again while the engine is enabled. -/
theorem bistStaysApart : Obligations.BistStaysApart := by
  unfold Obligations.BistStaysApart
  exact fun s t apart run => (step_keepsLegal run).bist apart

end Sys2Proof.Machine
end


section
/-! SUPPORT. Proofs: the CP15 writes, wait for interrupt and drain write buffer (R130, R132, R133, R135, R137). -/

namespace Sys2Proof.Machine

variable {c : Cond} {rd : Reg} {s : State}

/-! ## Guards that pass -/

/-- A guard whose test is false goes on. -/
@[simp] theorem failIf_false (r : Refusal) (k : Checked) : failIf false r k = k := rfl

/-- A new value of a TCM enable that meets its preconditions: an enabled TCM exists and has its BIST enable clear, a disabled
one has an empty write buffer (R130, R68). -/
theorem enableGuard_met {side : Side} {on : Bool} {k : Checked}
    (exists_ : on = true → s.pins.tcmSize side ≠ 0 ∧ (s.bist side).enable = false)
    (empty : on = false → s.cp15.tcmOn side = true → (s.tcm side).buf = []) : enableGuard side on s k = k := by
  cases on
  · cases off : s.cp15.tcmOn side
    · simp [enableGuard, off]
    · simp [enableGuard, empty rfl off]
  · obtain ⟨size, apart⟩ := exists_ rfl
    rw [enableGuard, decide_eq_false size, apart]
    rfl

/-! ## Drain write buffer -/

/-- Where no buffer holds data over an interface that never answers, a drain completes (R357). -/
theorem State.drainHangs_iff : s.drainHangs = true ↔ s.pins.itcmHung = true ∧ s.itcm.buf ≠ [] ∨
    s.pins.dtcmHung = true ∧ s.dtcm.buf ≠ [] ∨ s.pins.ahbHung = true ∧ s.ahb.buf ≠ [] := by
  simp only [State.drainHangs, Bool.or_eq_true, Bool.and_eq_true, Bool.not_eq_true', List.isEmpty_eq_false_iff]
  tauto

/-- A drain of all three buffers changes the memories and the buffers alone. -/
theorem MemoryOnly.drainAll (s : State) : MemoryOnly s s.drainAll :=
  ((MemoryOnly.drainAhb s).trans (.drainTcm _ .itcm)).trans (.drainTcm _ .dtcm)

/-- It changes no byte that the core can read. -/
theorem byteAt_drainAll (s : State) : SameMemory s s.drainAll := fun p =>
  calc s.drainAll.byteAt p
    _ = (s.drainAhb.drainTcm .itcm).byteAt p := byteAt_drainTcm _ .dtcm p
    _ = s.drainAhb.byteAt p := byteAt_drainTcm _ .itcm p
    _ = s.byteAt p := byteAt_drainAhb s p

theorem State.drainAll_itcm_buf (s : State) : s.drainAll.itcm.buf = [] := Tcm.drain_buf _

theorem State.drainAll_dtcm_buf (s : State) : s.drainAll.dtcm.buf = [] := Tcm.drain_buf _

theorem State.drainAll_ahb_buf (s : State) : s.drainAll.ahb.buf = [] := Ahb.drain_buf _

/-! ## The obligation -/

/-- Settles O40: each access is a `cp15Op` that makes its write; the guards of the Control Register and of the reserved bits
are met by the premises, and a drain either hangs or empties the three buffers. -/
theorem cp15WriteResult : Obligations.Cp15WriteResult := by
  unfold Obligations.Cp15WriteResult
  intro c rd crm s cond privileged rd15 v
  have access (k : State → Result) : cp15Op c rd k s = k s := cp15Op_privileged cond privileged rd15
  refine ⟨?control, ?config, ?procId, ?wait, ?stuck, ?drain⟩
  case control =>
    rintro ⟨itcmOn, itcmOff, dtcmOn, dtcmOff⟩
    refine (access fun s => checkedDone (writeControl (s.reg rd) s)).trans ?_
    rw [writeControl, enableGuard_met itcmOn itcmOff, enableGuard_met dtcmOn dtcmOff]
    rfl
  case config =>
    intro reserved
    have clear : v &&& ~~~configMask = 0 := reserved
    refine (access fun s => checkedDone (writeConfig (s.reg rd) s)).trans ?_
    rw [writeConfig, decide_eq_false (not_not_intro clear), failIf_false]
    rfl
  case procId =>
    exact access fun s => { s with cp15 := { s.cp15 with procId := s.reg rd, procIdWr := true } }.done
  case wait =>
    simp only [List.forall_mem_cons, List.not_mem_nil, IsEmpty.forall_iff, implies_true, and_true]
    exact ⟨access fun s => (waitForInterrupt s).done, access fun s => (waitForInterrupt s).done⟩
  case stuck =>
    intro stuck
    refine (access drainWriteBuffer).trans ?_
    rw [drainWriteBuffer, if_pos (State.drainHangs_iff.mpr stuck)]
  case drain =>
    intro free
    have drained := MemoryOnly.drainAll s
    have same := drained.sameSystem
    refine ⟨s.drainAll.advance, (access drainWriteBuffer).trans ?_, s.drainAll_itcm_buf, s.drainAll_dtcm_buf,
      s.drainAll_ahb_buf, byteAt_drainAll s, drained.regs, drained.cpsr, { same with }, ?_, drained.fetch⟩
    · rw [drainWriteBuffer, if_neg (free ∘ State.drainHangs_iff.mp)]
      rfl
    · exact congrArg₂ (· + ·) drained.pc (by rw [State.len, State.len, State.thumb, State.thumb, drained.cpsr])

end Sys2Proof.Machine
end


section
/-! SUPPORT. Proofs: a write of the BIST Control Register where neither engine runs (R38, R139, R347). -/

namespace Sys2Proof.Machine

variable {s : State}

/-! ## One side of the register -/

/-- The start strobe by whether a test stands at some word (R347, R349). -/
theorem Bist.start_eq (e : Bist) (pause : Bool) : e.start pause =
    if e.cursor = none then
      { e with running := true, auto := pause, complete := false, fail := false, failValid := false
               cursor := some { pass := .one, addr := e.addrReg.toNat } }
    else { e with running := true, auto := pause } := by
  unfold Bist.start
  split
  · next standing => rw [if_neg (by simp [standing])]
  · next idle => rw [if_pos idle]

/-- A size and a start address that a test may have (R38, R345). -/
theorem bistRangeOk_iff {side : Side} {size : BitVec 11} : bistRangeOk s side size = true ↔
    1 ≤ size.toNat ∧ size.toNat ≤ 24 ∧
      (s.bist side).addrReg.toNat + 2 ^ (size.toNat + 2) ≤ tcmBytes (s.pins.tcmSize side) := by
  rw [bistRangeOk, Bool.and_eq_true, Bool.and_eq_true, decide_eq_true_iff, decide_eq_true_iff, decide_eq_true_iff, and_assoc,
    bistBytes]

/-- What the write of its side makes of an idle or paused engine: the fields are stored, and a strobe starts it. -/
def Bist.written (e : Bist) (field : BitVec 16) : Bist :=
  let e := { e with size := field.extractLsb' 5 11, enable := field.getLsbD 2, pause := field.getLsbD 1 }
  if field.getLsbD 0 then e.start (field.getLsbD 1) else e

/-- The state after the write of one side: an enable clears the functional enable of the TCM. -/
def State.bistWritten (s : State) (side : Side) (field : BitVec 16) : State :=
  let s := s.setBist side ((s.bist side).written field)
  if field.getLsbD 2 then s.tcmOff side else s

/-- The rules of use of one side, on an engine that does not run, with no test dropped by clearing its enable. -/
structure BistRules (s : State) (side : Side) (field : BitVec 16) : Prop where
  idle : (s.bist side).running = false
  kept : field.getLsbD 2 = true ∨ (s.bist side).cursor = none
  empty : field.getLsbD 2 = true → s.cp15.tcmOn side = true → (s.tcm side).buf = []
  strobe : field.getLsbD 0 = true → field.getLsbD 2 = true ∧ s.pins.bistPresent side = true ∧
    bistRangeOk s side (field.extractLsb' 5 11) = true

/-- Under the rules no pause point is forgotten, and no free choice is taken. -/
theorem BistRules.keeps {side : Side} {field : BitVec 16} (rules : BistRules s side field) :
    bistForgets (s.bist side) (field.getLsbD 2) (field.getLsbD 0) s = (false, s) := by
  rw [bistForgets, rules.idle]
  rcases rules.kept with enabled | noTest
  · rw [enabled, if_neg (by simp)]
  · rw [noTest, if_neg (by simp)]

/-- Under the rules the write of a side completes. -/
theorem bistWriteSide_met {side : Side} {field : BitVec 16} (rules : BistRules s side field) :
    bistWriteSide side field s = .ok (s.bistWritten side field) := by
  have strobeRule : (field.getLsbD 0 && (!field.getLsbD 2 || !s.pins.bistPresent side ||
      !bistRangeOk s side (field.extractLsb' 5 11))) = false := by
    cases strobe : field.getLsbD 0
    · rfl
    · obtain ⟨enabled, present, range⟩ := rules.strobe strobe
      rw [enabled, present, range]
      rfl
  have bufferRule : (field.getLsbD 2 && s.cp15.tcmOn side && !(s.tcm side).buf.isEmpty) = false := by
    cases enabled : field.getLsbD 2
    · rfl
    · cases on : s.cp15.tcmOn side
      · rfl
      · rw [rules.empty enabled on]
        rfl
  have stored : (s.bist side) = { s.bist side with running := false } := by rw [← rules.idle]
  simp only [bistWriteSide, strobeRule, bufferRule, rules.keeps, rules.idle, Bool.false_and, failIf_false]
  rw [State.bistWritten, Bist.written, stored]
  rfl

/-! ## What the write of one side leaves -/

theorem State.bistWritten_bist (s : State) (side : Side) (field : BitVec 16) :
    (s.bistWritten side field).bist side = (s.bist side).written field := by
  unfold State.bistWritten
  cases side <;> dsimp only <;> split <;> rfl

theorem State.bistWritten_tcmOn (s : State) (side : Side) (field : BitVec 16) :
    (s.bistWritten side field).cp15.tcmOn side = (s.cp15.tcmOn side && !field.getLsbD 2) := by
  unfold State.bistWritten
  cases enabled : field.getLsbD 2
  · cases side <;> exact (Bool.and_true _).symm
  · cases side <;> exact (Bool.and_false _).symm

/-- The other engine and its TCM are as they were. -/
theorem State.bistWritten_other (s : State) {side other : Side} (apart : other ≠ side) (field : BitVec 16) :
    (s.bistWritten side field).bist other = s.bist other ∧
      (s.bistWritten side field).cp15.tcmOn other = s.cp15.tcmOn other := by
  unfold State.bistWritten
  cases side <;> cases other
  · exact absurd rfl apart
  · dsimp only; split <;> exact ⟨rfl, rfl⟩
  · dsimp only; split <;> exact ⟨rfl, rfl⟩
  · exact absurd rfl apart

/-- Nothing but the engine and the enable of its TCM is written. -/
theorem State.bistWritten_core (s : State) (side : Side) (field : BitVec 16) :
    ∃ bistI bistD i d, s.bistWritten side field =
      { s with cp15 := { s.cp15 with bistI := bistI, bistD := bistD, i := i, d := d } } := by
  unfold State.bistWritten
  cases side <;> dsimp only <;> split <;> exact ⟨_, _, _, _, rfl⟩

/-- The rules of one side still hold after the write of the other. -/
theorem BistRules.after {side other : Side} {field : BitVec 16} (rules : BistRules s other field) (apart : other ≠ side)
    (written : BitVec 16) : BistRules (s.bistWritten side written) other field := by
  obtain ⟨engine, enable⟩ := s.bistWritten_other apart written
  obtain ⟨_, _, _, _, core⟩ := s.bistWritten_core side written
  have tcm : (s.bistWritten side written).tcm other = s.tcm other := by rw [core]; rfl
  have pins : (s.bistWritten side written).pins = s.pins := by rw [core]
  constructor
  · rw [engine]; exact rules.idle
  · rw [engine]; exact rules.kept
  · rw [enable, tcm]; exact rules.empty
  · rw [bistRangeOk, engine, pins]; exact rules.strobe

/-! ## The obligation -/

/-- Settles O43: the sides are written one after the other; neither write reaches the other's engine, TCM or rules. -/
theorem bistControlWrite : Obligations.BistControlWrite := by
  unfold Obligations.BistControlWrite
  intro c rd s cond privileged rd15 field size enable pause strobe reserved usable
  have rules (side : Side) : BistRules s side (field side) := by
    obtain ⟨idle, kept, empty, start⟩ := usable side
    refine ⟨idle, kept, empty, fun strobed => ?_⟩
    obtain ⟨enabled, present, least, most, fits⟩ := start strobed
    exact ⟨enabled, present, bistRangeOk_iff.mpr ⟨least, most, fits⟩⟩
  let u := s.bistWritten .itcm (field .itcm)
  let t := u.bistWritten .dtcm (field .dtcm)
  have apart : Side.itcm ≠ Side.dtcm := nofun
  obtain ⟨itcmEngine, itcmEnable⟩ := u.bistWritten_other apart (field .dtcm)
  obtain ⟨dtcmEngine, dtcmEnable⟩ := s.bistWritten_other apart.symm (field .itcm)
  have engines (side : Side) : t.bist side = (s.bist side).written (field side) := by
    cases side
    · exact itcmEngine.trans (s.bistWritten_bist _ _)
    · exact (u.bistWritten_bist _ _).trans (by rw [dtcmEngine])
  have enables (side : Side) : t.cp15.tcmOn side = (s.cp15.tcmOn side && !enable side) := by
    cases side
    · exact itcmEnable.trans (s.bistWritten_tcmOn _ _)
    · exact (u.bistWritten_tcmOn _ _).trans (by rw [dtcmEnable])
  refine ⟨t.advance, ?run, fun side => ⟨(engines side).trans ?start, enables side⟩, ?frame⟩
  case run =>
    refine (cp15Op_privileged (k := fun s => checkedDone (bistWriteControl (s.reg rd) s)) cond privileged rd15).trans ?_
    have first : bistWriteSide .itcm ((s.reg rd).extractLsb' 16 16) s = .ok u := bistWriteSide_met (rules .itcm)
    have second : bistWriteSide .dtcm ((s.reg rd).extractLsb' 0 16) u = .ok t :=
      bistWriteSide_met ((rules .dtcm).after apart.symm _)
    rw [bistWriteControl, decide_eq_false (not_not_intro reserved), failIf_false, first, Except.bind, second]
    rfl
  case start =>
    rw [Bist.written, Bist.start_eq]
  case frame =>
    obtain ⟨_, _, _, _, first⟩ := s.bistWritten_core .itcm (field .itcm)
    obtain ⟨_, _, _, _, second⟩ := u.bistWritten_core .dtcm (field .dtcm)
    have core : t = _ := second.trans (by rw [show u = _ from first])
    rw [core]
    rfl

end Sys2Proof.Machine
end


section
/-! SUPPORT. Proofs: the BIST address and general registers, peek and poke (R39, R140 to R143, R348). -/

namespace Sys2Proof.Machine

variable {c : Cond} {rd : Reg} {s : State} {side : Side} {v : Word}

/-! ## The addresses of a TCM -/

/-- A TCM has no bytes just where its pins say that it is absent (R32). -/
theorem tcmBytes_ne_zero_iff (size : BitVec 5) : tcmBytes size ≠ 0 ↔ size ≠ 0 := by
  unfold tcmBytes
  split
  · next absent => exact iff_of_false (not_not_intro rfl) (not_not_intro absent)
  · next present => exact iff_of_true (by positivity) present

/-- The flag of an xTCMERROR failure is one bit above the addresses of the TCM (R39, R140). -/
theorem bistErrorFlag_eq (legal : tcmSizeLegal (s.pins.tcmSize side) = true) :
    ∃ n, 2 ≤ n ∧ n < 32 ∧ tcmBytes (s.pins.tcmSize side) ≤ 2 ^ n ∧
      bistErrorFlag s side = BitVec.ofNat 32 (2 ^ n) := by
  have small : (s.pins.tcmSize side).toNat ≤ 17 := of_decide_eq_true legal
  let bits := max 2 (if s.pins.tcmSize side = 0 then 0 else (s.pins.tcmSize side).toNat + 9)
  have low : 2 ≤ bits := le_max_left _ _
  have high : bits ≤ 26 := by dsimp only [bits]; split <;> omega
  have covers : tcmBytes (s.pins.tcmSize side) ≤ 2 ^ bits := by
    unfold tcmBytes
    split
    · exact Nat.zero_le _
    · next present =>
      have least : (s.pins.tcmSize side).toNat + 9 ≤ bits := by
        dsimp only [bits]; rw [if_neg present]; exact le_max_right _ _
      exact Nat.pow_le_pow_right Nat.two_pos least
  have above : Config.bistErrorBit bits % (32 - bits) < 32 - bits := Nat.mod_lt _ (by omega)
  refine ⟨bits + Config.bistErrorBit bits % (32 - bits), by omega, by omega,
    covers.trans (Nat.pow_le_pow_right Nat.two_pos (Nat.le_add_right _ _)), ?_⟩
  apply BitVec.eq_of_toNat_eq
  simp [bistErrorFlag, bits, Nat.shiftLeft_eq]

/-- The word addresses within a TCM (R39). -/
def tcmWords (s : State) (side : Side) : Word := 0xFFFFFFFC &&& tcmMask s side

theorem tcmMask_and_not_three (s : State) (side : Side) : tcmMask s side &&& ~~~3 = tcmWords s side :=
  BitVec.and_comm _ _

/-! ## The engine and the TCM of a side, written -/

theorem State.setBist_setBist (s : State) (side : Side) (e e' : Bist) :
    (s.setBist side e).setBist side e' = s.setBist side e' := by cases side <;> rfl

theorem State.setBist_tcm (s : State) (side : Side) (e : Bist) : (s.setBist side e).tcm side = s.tcm side := by
  cases side <;> rfl

theorem State.setBist_nextPc (s : State) (side : Side) (e : Bist) : (s.setBist side e).nextPc = s.nextPc := by
  cases side <;> rfl

theorem State.setTcm_nextPc (s : State) (side : Side) (t : Tcm) : (s.setTcm side t).nextPc = s.nextPc := by
  cases side <;> rfl

/-! ## Reads -/

/-- The address of a failure (R140). -/
theorem bistReadAddress_valid (valid : (s.bist side).failValid = true) : bistReadAddress side s =
    (((s.bist side).failAddr &&& tcmWords s side) ||| (if (s.bist side).failErr then bistErrorFlag s side else 0), s) := by
  rw [bistReadAddress, tcmMask_and_not_three, if_pos valid]

/-- Before a failure the bits that may be set are free. -/
theorem bistReadAddress_invalid (invalid : (s.bist side).failValid = false) : bistReadAddress side s =
    (Config.freeWord s.freeCtr &&& (tcmWords s side ||| bistErrorFlag s side), s.takeWord.2) := by
  rw [bistReadAddress, tcmMask_and_not_three, if_neg (Bool.eq_false_iff.mp invalid), s.takeWord_value]

/-- A read of the general register does not wait where the pause bit is clear. -/
theorem peekHangs_running (running : (s.bist side).pause = false) : peekHangs s side = false := by
  rw [peekHangs, running, Bool.false_and]

/-- With it set the read waits for a peek without its data (R142, R357), -/
theorem peekHangs_peek {a : Word} (paused : (s.bist side).pause = true) (waits : (s.bist side).access = some (.peek a)) :
    peekHangs s side = true := by
  rw [peekHangs, paused, waits, Bool.true_and]

/-- and for nothing else. -/
theorem peekHangs_other (other : ∀ a, (s.bist side).access ≠ some (.peek a)) : peekHangs s side = false := by
  rw [peekHangs]
  split
  · exact Bool.and_false _
  · next a waits => exact absurd waits (other a)
  · exact Bool.and_false _

/-- An MRC of the general register that does not wait. -/
theorem bistGeneralRead_done (cond : Cond.holds c s.cpsr = true) (privileged : s.privileged = true) (rd15 : rd ≠ 15)
    (answered : peekHangs s side = false) : bistGeneralRead side c rd s =
      .next (((bistReadGeneral side s).2).setReg rd (bistReadGeneral side s).1).advance := by
  rw [bistGeneralRead, cp15Op_privileged cond privileged rd15, answered, if_neg Bool.false_ne_true]

/-! ## Peek and poke -/

/-- The engine after a write of the address register with the pause bit set (R141). -/
def Bist.peeked (e : Bist) (a d : Word) (waiting : Option BistAccess) : Bist :=
  { e with addrReg := a, failValid := false, peekData := d, access := waiting }

/-- The engine after a write of the general register with the pause bit set (R143). -/
def Bist.noted (e : Bist) (v : Word) (waiting : Option BistAccess) : Bist :=
  { e with dataReg := v, failValid := false, access := waiting }

/-- Where a peek is made: on an engine present and enabled over a disabled TCM that exists (R348). -/
theorem peeks_iff : (peekDescribed s side && peekExists s side) = true ↔
    s.pins.bistPresent side = true ∧ (s.bist side).enable = true ∧ s.cp15.tcmOn side = false ∧
      tcmBytes (s.pins.tcmSize side) ≠ 0 := by
  rw [peekDescribed, peekExists, tcmBytes_ne_zero_iff]
  simp only [Bool.and_eq_true, Bool.not_eq_true', decide_eq_true_eq, and_assoc]

/-- Where no poke is described, one may still be made if there is a memory. -/
theorem pokes_iff {free : Bool} (undescribed : ¬(peekDescribed s side && peekExists s side) = true) :
    ((peekDescribed s side || free) && peekExists s side) = true ↔ tcmBytes (s.pins.tcmSize side) ≠ 0 ∧ free = true := by
  have exists_iff : peekExists s side = true ↔ tcmBytes (s.pins.tcmSize side) ≠ 0 := by
    rw [peekExists, decide_eq_true_iff, tcmBytes_ne_zero_iff]
  rw [← exists_iff]
  revert undescribed
  generalize peekDescribed s side = described, peekExists s side = present
  revert described present free
  decide

/-- A peek waits on a TCM that never answers, and gets its word from any other (R141, R357). -/
theorem makeAccess_peek (s : State) (side : Side) (a : Word) : makeAccess side (.peek a) s =
    s.setBist side (if s.pins.tcmHung side then { s.bist side with access := some (.peek a) }
      else { s.bist side with peekData := (s.tcm side).mem.readWord (wordNumber a), access := none }) := by
  dsimp only [makeAccess]
  rw [State.setBist_pins]
  cases s.pins.tcmHung side <;> cases side <;> rfl

/-- A poke waits on a TCM that never answers, and writes the memory of any other (R143, R357). -/
theorem makeAccess_poke (s : State) (side : Side) (a v : Word) : makeAccess side (.poke a v) s =
    if s.pins.tcmHung side then s.setBist side { s.bist side with access := some (.poke a v) }
    else (s.setBist side { s.bist side with access := none }).setTcm side ((s.tcm side).commit (wordNumber a) 0b1111 v) := by
  dsimp only [makeAccess]
  rw [State.setBist_pins]
  cases s.pins.tcmHung side <;> cases side <;> rfl

theorem afterAccess_none {k : Checked} (idle : (s.bist side).access = none) : afterAccess side s k = k := by
  rw [afterAccess, idle, Option.isSome_none, if_neg Bool.false_ne_true]

theorem afterAccess_some {k : Checked} (waits : (s.bist side).access ≠ none) :
    afterAccess side s k = .error (.fault .accessNeverCompletes) := by
  rw [afterAccess, if_pos (Option.isSome_iff_ne_none.mpr waits)]

/-! ## Writes with the pause bit clear -/

/-- The start address is truncated to the words of the TCM (R141). -/
theorem bistWriteAddress_start (running : (s.bist side).pause = false) : bistWriteAddress side v s =
    .ok (s.setBist side { s.bist side with addrReg := v &&& tcmWords s side }) := by
  rw [bistWriteAddress, if_neg (Bool.eq_false_iff.mp running), BitVec.and_assoc]
  rfl

/-- The pattern is stored (R143). -/
theorem bistWriteGeneral_pattern (running : (s.bist side).pause = false) : bistWriteGeneral side v s =
    .ok (s.setBist side { s.bist side with dataReg := v }) := by
  rw [bistWriteGeneral, if_neg (Bool.eq_false_iff.mp running)]

/-! ## Writes with the pause bit set -/

/-- A peek or poke that still waits holds up the next one (R143, R357). -/
theorem bistWrite_waits (paused : (s.bist side).pause = true) (waits : (s.bist side).access ≠ none) :
    bistWriteAddress side v s = .error (.fault .accessNeverCompletes) ∧
      bistWriteGeneral side v s = .error (.fault .accessNeverCompletes) := by
  rw [bistWriteAddress, bistWriteGeneral, if_pos paused, if_pos paused]
  exact ⟨afterAccess_some waits, afterAccess_some waits⟩

/-- An engine that waits for nothing has nothing to forget there. -/
theorem Bist.eq_of_access_none {e : Bist} (idle : e.access = none) : e = { e with access := none } := by rw [← idle]

/-- A write of the address register with the pause bit set (R141): the peek is made where it is described, else the data is
free. -/
theorem bistWriteAddress_peek (paused : (s.bist side).pause = true) (idle : (s.bist side).access = none) :
    let a := v &&& tcmWords s side
    bistWriteAddress side v s = .ok (s.takeWord.2.setBist side
      (if peekDescribed s side && peekExists s side then
        if s.pins.tcmHung side then (s.bist side).peeked a (s.bist side).peekData (some (.peek a))
        else (s.bist side).peeked a ((s.tcm side).mem.readWord (wordNumber a)) none
      else (s.bist side).peeked a (Config.freeWord s.freeCtr) none)) := by
  intro a
  have written : bistWriteAddress side v s = .ok
      (if peekDescribed s side && peekExists s side then
        makeAccess side (.peek a) (s.takeWord.2.setBist side { s.bist side with addrReg := a, failValid := false })
      else s.takeWord.2.setBist side
        { s.bist side with addrReg := a, failValid := false, peekData := Config.freeWord s.freeCtr }) := by
    rw [bistWriteAddress, if_pos paused, afterAccess_none idle, BitVec.and_assoc]
    cases side <;> rfl
  have tcm : s.takeWord.2.tcm side = s.tcm side := by cases side <;> rfl
  rw [written, makeAccess_peek, State.setBist_setBist, State.setBist_bist, State.setBist_tcm, State.setBist_pins, tcm]
  cases peekDescribed s side && peekExists s side
  · rw [Bist.eq_of_access_none idle]
    rfl
  · cases hung : s.pins.tcmHung side
    · rw [s.takeWord_pins, hung]
      rfl
    · rw [s.takeWord_pins, hung]
      rfl

/-- The state after a poke of a TCM that exists (R143). -/
def State.bistPoked (s : State) (side : Side) (a v : Word) : State :=
  if s.pins.tcmHung side then s.takeBool.2.setBist side ((s.bist side).noted v (some (.poke a v)))
  else (s.takeBool.2.setBist side ((s.bist side).noted v none)).setTcm side ((s.tcm side).commit (wordNumber a) 0b1111 v)

theorem State.bistPoked_nextPc (s : State) (side : Side) (a v : Word) : (s.bistPoked side a v).nextPc = s.nextPc := by
  unfold State.bistPoked
  split
  · exact State.setBist_nextPc _ _ _
  · exact (State.setTcm_nextPc _ _ _).trans (State.setBist_nextPc _ _ _)

/-- A write of the general register with the pause bit set (R143): the poke is made where it is described, and where it is not,
or not, free, if there is a memory. -/
theorem bistWriteGeneral_poke (paused : (s.bist side).pause = true) (idle : (s.bist side).access = none) :
    bistWriteGeneral side v s = .ok
      (if (peekDescribed s side || Config.freeBool s.freeCtr) && peekExists s side then
        s.bistPoked side ((s.bist side).addrReg &&& tcmMask s side) v
      else s.takeBool.2.setBist side ((s.bist side).noted v none)) := by
  have noted : (s.bist side).noted v none = { s.bist side with dataReg := v, failValid := false } := by
    rw [Bist.eq_of_access_none idle]
    rfl
  have written : bistWriteGeneral side v s = .ok
      (if (peekDescribed s side || Config.freeBool s.freeCtr) && peekExists s side then
        makeAccess side (.poke ((s.bist side).addrReg &&& tcmMask s side) v)
          (s.takeBool.2.setBist side ((s.bist side).noted v none))
      else s.takeBool.2.setBist side ((s.bist side).noted v none)) := by
    rw [bistWriteGeneral, if_pos paused, afterAccess_none idle, noted]
    cases side <;> rfl
  have tcm : s.takeBool.2.tcm side = s.tcm side := by cases side <;> rfl
  rw [written, makeAccess_poke, State.setBist_setBist, State.setBist_setBist, State.setBist_bist, State.setBist_tcm,
    State.setBist_pins, tcm]
  rfl

/-! ## The obligation -/

/-- Going on from a state that stands at the same instruction. -/
theorem State.advance_of_nextPc {t : State} (same : t.nextPc = s.nextPc) : t.advance = { t with pc := s.nextPc } := by
  rw [State.advance, same]

/-- Settles O42: both sides run the same reads and writes, each with its pause bit clear or set; a peek or poke is made where
it is described. -/
theorem bistRegisterResult : Obligations.BistRegisterResult := by
  unfold Obligations.BistRegisterResult
  intro c rd s cond privileged rd15 x listed e size range words a target flag hung at_ next free described peeked noted poked
  have access (k : State → Result) : cp15Op c rd k s = k s := cp15Op_privileged cond privileged rd15
  obtain ⟨readAddress, writeAddress, readGeneral, writeGeneral⟩ :
      exec x.2.1 s = cp15Read c rd (bistReadAddress x.1) s ∧ exec x.2.2.1 s = cp15Write c rd (bistWriteAddress x.1) s ∧
      exec x.2.2.2.1 s = bistGeneralRead x.1 c rd s ∧ exec x.2.2.2.2 s = cp15Write c rd (bistWriteGeneral x.1) s := by
    rw [List.mem_pair] at listed
    obtain rfl | rfl := listed
    · exact ⟨rfl, rfl, rfl, rfl⟩
    · exact ⟨rfl, rfl, rfl, rfl⟩
  rw [cp15Read, access] at readAddress
  rw [cp15Write, access] at writeAddress writeGeneral
  have after (y : State) (same : y.nextPc = s.nextPc) : checkedDone (.ok y) = .next (at_ y) :=
    congrArg Host.Outcome.next (State.advance_of_nextPc same)
  have engineAfter (y : State) (e' : Bist) (same : y.nextPc = s.nextPc) :
      checkedDone (.ok (y.setBist x.1 e')) = .next (at_ (y.setBist x.1 e')) :=
    after _ ((y.setBist_nextPc x.1 e').trans same)
  refine ⟨bistErrorFlag_eq, ?_, ?_, ?_, ?_, ?_, ?_, ?_, ?_, ?_⟩
  · intro valid
    rw [readAddress, bistReadAddress_valid valid]
    rfl
  · intro invalid
    rw [readAddress, bistReadAddress_invalid invalid]
    rfl
  · intro running
    rw [writeAddress, bistWriteAddress_start running]
    exact engineAfter s _ rfl
  · intro running
    rw [writeGeneral, bistWriteGeneral_pattern running]
    exact engineAfter s _ rfl
  · intro running valid
    rw [readGeneral, bistGeneralRead_done cond privileged rd15 (peekHangs_running running), bistReadGeneral,
      if_neg (Bool.eq_false_iff.mp running), if_pos valid]
    rfl
  · intro running invalid
    rw [readGeneral, bistGeneralRead_done cond privileged rd15 (peekHangs_running running), bistReadGeneral,
      if_neg (Bool.eq_false_iff.mp running), if_neg (Bool.eq_false_iff.mp invalid)]
    rfl
  · intro paused
    have answered (other : ∀ a, e.access ≠ some (.peek a)) : exec x.2.2.2.1 s = .next (s.wrote rd e.peekData) := by
      rw [readGeneral, bistGeneralRead_done cond privileged rd15 (peekHangs_other other), bistReadGeneral, if_pos paused]
      rfl
    split
    · next a waits => rw [readGeneral, bistGeneralRead, access, if_pos (peekHangs_peek paused waits)]
    · next other => exact answered other
  · intro paused waits
    obtain ⟨address, general⟩ := bistWrite_waits (v := s.reg rd) paused waits
    rw [writeAddress, writeGeneral, address, general]
    exact ⟨rfl, rfl⟩
  · intro paused idle
    have peek := bistWriteAddress_peek (v := s.reg rd) paused idle
    have poke := bistWriteGeneral_poke (v := s.reg rd) paused idle
    have pokes : checkedDone (.ok (s.bistPoked x.1 target (s.reg rd))) = .next poked :=
      (after _ (s.bistPoked_nextPc _ _ _)).trans (congrArg Host.Outcome.next (apply_ite at_ _ _ _))
    rw [writeAddress, writeGeneral, peek, poke]
    constructor
    · intro isDescribed
      have made := peeks_iff.mpr isDescribed
      obtain ⟨described, present⟩ := Bool.and_eq_true_iff.mp made
      rw [if_pos made, described, present]
      exact ⟨(engineAfter next _ rfl).trans
        (congrArg Host.Outcome.next (apply_ite (fun e' => at_ (next.setBist x.1 e')) _ _ _)), pokes⟩
    · intro undescribed
      have unmade := undescribed ∘ peeks_iff.mp
      rw [if_neg unmade]
      refine ⟨engineAfter next _ rfl, ?_⟩
      by_cases taken : size ≠ 0 ∧ Config.freeBool s.freeCtr = true
      · rw [if_pos taken, if_pos ((pokes_iff unmade).mpr taken)]
        exact pokes
      · rw [if_neg taken, if_neg (taken ∘ (pokes_iff unmade).mp)]
        exact engineAfter next _ rfl

end Sys2Proof.Machine
end
